-- ==== Sys2Proof/Word.lean ====
section
/-! DEFINITION. The word types of the RAC: bytes, 7-bit device addresses, request words, byte lists. -/

namespace Sys2Proof

/-- A byte: 8 bits, unsigned (00_scope R7). -/
abbrev Byte := BitVec 8

/-- A device register address of `ADDR_BITS` = 7 bits (00_scope R6). -/
abbrev Addr := BitVec 7

/-- A request word (30_encoding R70). -/
abbrev ReqWord := BitVec 32

/-- The packet-format selector's type: 3 bits (10_state R22). -/
abbrev Format := BitVec 3

/-- The presence mask of RDF: 6 bits (30_encoding R80). -/
abbrev Presence := BitVec 6

/-- A list of bytes `[b0, b1, ...]` (00_scope R7). -/
abbrev Bytes := List Byte

/-- A scratch buffer: 256 bytes (10_state R31). -/
abbrev Buffer := Vector Byte 256

end Sys2Proof
end

