-- ==== Sys2Proof/Config.lean ====
section
/-! DEFINITION. What one built RAC fixes (00_scope R6, 10_state R20), and the model's free values.
The OPEN parameters have no value in any source, so each is a constant without a body. -/

namespace Sys2Proof

/-- The chip-select line identity, "port + pin descriptor" (10_state R20). No rule reads it. -/
structure CsLine where
  port : Nat
  pin : Nat
deriving DecidableEq, Repr

/-- The configuration of one RAC: fixed when it is built and never changed by a request
(10_state R20; 00_scope R6). -/
structure Params where
  /-- `BANK_SEL_ADDR` -/
  bankSelAddr : Addr
  /-- `FIFO_MODE_ADDR` -/
  fifoModeAddr : Addr
  /-- `FIFO_MODE_MASK` -/
  fifoModeMask : Byte
  /-- `FIFO_MODE_SHIFT` -/
  fifoModeShift : BitVec 3
  /-- `FIFO_MODE_STREAM` -/
  fifoModeStream : Byte
  /-- `FIFO_FMT_ADDR` -/
  fifoFmtAddr : Addr
  /-- `FIFO_PATTERN(1)` -/
  fifoPattern1 : Byte
  /-- `FIFO_PATTERN(2)` -/
  fifoPattern2 : Byte
  /-- `FIFO_PATTERN(3)` -/
  fifoPattern3 : Byte
  /-- `FIFO_PATTERN(4)` -/
  fifoPattern4 : Byte
  /-- `FIFO_DATA_ADDR` -/
  fifoDataAddr : Addr
  /-- `DUMMY_TX`, the filler byte of a read frame -/
  dummyTx : Byte
  /-- the transport binding, an opaque handle (10_state R20); no rule reads it -/
  transport : Nat
  /-- the chip-select line identity (10_state R20); no rule reads it -/
  csLine : CsLine
deriving DecidableEq, Repr

namespace Config

/-! The OPEN parameters of 00_scope R6 (assumption log 11). -/

opaque bankSelAddr : Addr
opaque fifoModeAddr : Addr
opaque fifoModeMask : Byte
opaque fifoModeShift : BitVec 3
opaque fifoModeStream : Byte
opaque fifoFmtAddr : Addr
opaque fifoPattern1 : Byte
opaque fifoPattern2 : Byte
opaque fifoPattern3 : Byte
opaque fifoPattern4 : Byte
opaque fifoDataAddr : Addr
opaque transport : Nat
opaque csPort : Nat
opaque csPin : Nat

/-! Free values (assumption log 8): what a scratch register holds once its contents are unspecified
(93 U16, U17). Each is applied to the counter `draws` of the state. -/

/-- The contents of `TXBUF` where it holds no byte of a transaction: all of it between transactions, and
the bytes past the tx list during one. -/
opaque freeTx : Nat → Buffer

/-- The contents of `RXBUF` where it holds no received byte: all of it when it holds no list, and the bytes
past the rx list otherwise. -/
opaque freeRx : Nat → Buffer

/-- The contents of `RBYTE` outside a read-modify-write. -/
opaque freeByte : Nat → Byte

/-- The configuration an instance is built with: every OPEN parameter at its opaque constant, and
`DUMMY_TX` at the value 00_scope R6 gives. -/
def built : Params where
  bankSelAddr := bankSelAddr
  fifoModeAddr := fifoModeAddr
  fifoModeMask := fifoModeMask
  fifoModeShift := fifoModeShift
  fifoModeStream := fifoModeStream
  fifoFmtAddr := fifoFmtAddr
  fifoPattern1 := fifoPattern1
  fifoPattern2 := fifoPattern2
  fifoPattern3 := fifoPattern3
  fifoPattern4 := fifoPattern4
  fifoDataAddr := fifoDataAddr
  dummyTx := 0x00#8
  transport := transport
  csLine := ⟨csPort, csPin⟩

end Config

end Sys2Proof
end

