-- ==== Sys2Proof/Syntax.lean ====
section
/-! DEFINITION. The instructions: one constructor for each row of spec/opcode_table.json. Fields that a
request does not read (30_encoding R72, R73) are no operands. -/

namespace Sys2Proof

/-- A request of the RAC, or the command byte of a frame it emits. Operands are the fields of the
request word as R72 of 30_encoding names them; the masking of an address to 7 bits belongs to the
framing (R77), so an address operand keeps its 8 bits here. -/
inductive Instr where
  /-- `SELB bank` (40_register_access R91) -/
  | selb (bank : Byte)
  /-- `RDR addr` (R95) -/
  | rdr (addr : Byte)
  /-- `WRR addr, data` (R98) -/
  | wrr (addr data : Byte)
  /-- `RMW mask, addr, value, shift` (R101) -/
  | rmw (mask addr value : Byte) (shift : BitVec 3)
  /-- `BRD addr, count` (R110) -/
  | brd (addr count : Byte)
  /-- `CFGF format` (45_fifo_decoder R132) -/
  | cfgf (format : Byte)
  /-- `RDF fields` (R140) -/
  | rdf (present : Presence)
  /-- the reserved request opcode 0x0 (30_encoding R74) -/
  | reserved0
  /-- the reserved request opcodes 0x8 to 0xF (R74); `op` is the field `OP` -/
  | reserved8F (op : BitVec 4)
  /-- the command byte of a read frame at a 7-bit address (R75, R77) -/
  | spiRead (addr : Addr)
  /-- the command byte of a write frame at a 7-bit address (R76, R77) -/
  | spiWrite (addr : Addr)
deriving DecidableEq, Repr

/-- Is it a request (a word of the request port), not a frame the RAC emits? -/
def Instr.isRequest : Instr → Bool
  | .selb _ | .rdr _ | .wrr _ _ | .rmw _ _ _ _ | .brd _ _ | .cfgf _ | .rdf _ | .reserved0
  | .reserved8F _ => true
  | .spiRead _ | .spiWrite _ => false

end Sys2Proof
end

