-- ==== Sys2Proof/Machine/State.lean ====
section
/-! DEFINITION. The state of one RAC, the outcomes' reasons, and the state after reset (10_state). -/

namespace Sys2Proof.Machine

/-- `SEQ`, the sequencer state (10_state R25). -/
inductive Seq where
  /-- no request in progress; the request port accepts a request -/
  | idle
  /-- running step k of the current request's step list -/
  | step (k : Nat)
  /-- step k is a transaction on the transport port -/
  | xfer (k : Nat)
  /-- the response is in `RESP` -/
  | respond
deriving DecidableEq, Repr

/-- A level of the chip-select output (10_state R26). -/
inductive Level where
  | high
  | low
deriving DecidableEq, Repr

/-- A response status (60_exceptions R160); its 3-bit code is `Status.code` of Flags. -/
inductive Status where
  | ok
  | invalidArgument
  | commsFailure
  | notConfigured
  | notImplemented
deriving DecidableEq, Repr

/-- The six fields of a FIFO packet (10_state R30, 30_encoding R80). -/
inductive Field where
  | accel
  | gyro
  | temp
  | timestamp
  | extended
  | extra
deriving DecidableEq, Repr

/-- The RDF field record: each field absent or a list of bytes (10_state R30). -/
structure FieldRecord where
  accel : Option Bytes
  gyro : Option Bytes
  temp : Option Bytes
  timestamp : Option Bytes
  extended : Option Bytes
  extra : Option Bytes
deriving DecidableEq, Repr

/-- The data part of a response (10_state R29). -/
inductive Data where
  | none
  | byte (b : Byte)
  | bytes (l : Bytes)
  | fields (r : FieldRecord)
deriving DecidableEq, Repr

/-- One response: a status and a data part (10_state R29). -/
structure Response where
  status : Status
  data : Data
deriving DecidableEq, Repr

/-- The environment's answer to one transaction (10_state R27). -/
inductive Answer where
  | ok (rx : Bytes)
  | fail
deriving DecidableEq, Repr

/-- One answered transaction as 00_scope R11 observes it: its tx bytes and its outcome. -/
structure Transaction where
  tx : Bytes
  outcome : Answer
deriving DecidableEq, Repr

/-- The state of one RAC with its requester's position and the two inputs. -/
structure State where
  /-- `FMT`, the packet-format selector (R22) -/
  fmt : Format
  /-- `SEQ` (R25) -/
  seq : Seq
  /-- `CS` (R26) -/
  cs : Level
  /-- `TXBUF` (R31): its first `txlen` bytes are the tx list of the transaction on the transport port -/
  txbuf : Buffer
  /-- how many bytes that transaction has (R27), 0 when none is on the port (log 25) -/
  txlen : Nat
  /-- `RXBUF` (R31): its first `rxlen` bytes are the rx list of the last transaction of the request in
  progress -/
  rxbuf : Buffer
  /-- how many bytes that list has, 0 when none is held (log 9, log 25) -/
  rxlen : Nat
  /-- `RBYTE` (R32) -/
  rbyte : Byte
  /-- `RESP` (R29): empty, or one response -/
  resp : Option Response
  /-- the request in progress with its operands (R21: not held after the request ends) -/
  req : Option Instr
  /-- the configuration (R20) -/
  cfg : Params
  /-- the requester's index into its program (R33) -/
  pc : Nat
  /-- the requester's program, a list of request words (R33): an input -/
  program : List ReqWord
  /-- what the environment will answer, oldest first (00_scope R5): an input; an empty list is an answer
  that does not come (R27) -/
  answers : List Answer
  /-- the answered transactions, oldest first (00_scope R11 (a)): the model's record -/
  trace : List Transaction
  /-- the responses taken, oldest first (00_scope R11 (b)): the model's record -/
  responses : List Response
  /-- how many free values have been drawn: the model's counter -/
  draws : Nat
deriving DecidableEq, Repr

/-- Why a step stops with a fault. No run the spec describes reaches one. -/
inductive Fault where
  /-- Raised by the transport port when an Ok answer's list has not the transaction's length: 00_scope R10
  admits no such answer. Safe. -/
  | answerLength
  /-- Raised by RDR, RMW and CFGF when a read transaction of fewer than 2 bytes is answered: 40 R96 says
  none is ever presented. Safe. -/
  | shortRead
  /-- Raised by RDF when `FMT` holds a value with no packet layout after its `NotConfigured` check:
  10_state R22 calls 5 to 7 invalid and never written. Safe. -/
  | fmtInvalid
deriving DecidableEq, Repr

/-- Why a step is refused. -/
inductive Refusal where
  /-- No meaning is given yet to the instruction. Safe. -/
  | notModelled (mnemonic : String)
  /-- Raised by a request's meaning while another request is in progress or a response waits: 70 R193
  gives the requester no such move. Safe. -/
  | requestWhileBusy
  /-- Raised by a request's meaning at a step number its step list does not have (10_state R25). Safe. -/
  | noSuchStep
  /-- Raised by the meaning of a frame that is not the one on the transport port (30_encoding R75, R76).
  Safe. -/
  | frameNotPresented
  /-- Raised by the step function when `SEQ` is `STEP(k)` or `XFER(k)` and no request is in progress.
  Safe. -/
  | nothingInProgress
  /-- Raised by the step function when `SEQ` is `RESPOND` and `RESP` is empty. Safe. -/
  | noResponse
deriving DecidableEq, Repr

/-- The outcome of one step of this machine. -/
abbrev Result := Host.Outcome State Fault Refusal

/-- The state after reset (10_state R37, 70 R180). `TXBUF`, `RXBUF` and `RBYTE` are unspecified there:
their zeros are the model's DESIGN CHOICE (assumption log 7). -/
def State.reset : State where
  fmt := 0
  seq := .idle
  cs := .high
  txbuf := Vector.replicate 256 0x00#8
  txlen := 0
  rxbuf := Vector.replicate 256 0x00#8
  rxlen := 0
  rbyte := 0x00#8
  resp := none
  req := none
  cfg := Config.built
  pc := 0
  program := []
  answers := []
  trace := []
  responses := []
  draws := 0

end Sys2Proof.Machine
end

