-- ==== Sys2Proof/Machine/Flags.lean ====
section
/-! DEFINITION. The status of a response, the RAC's only condition indicator (10_state R34): its 3-bit
code (60_exceptions R160) and what it says of the data part (10_state R29). -/

namespace Sys2Proof.Machine

/-- The 3-bit status code (R160). -/
def statusCode : Status → BitVec 3
  | .ok => 0
  | .invalidArgument => 1
  | .commsFailure => 2
  | .notConfigured => 3
  | .notImplemented => 4

/-- A response with an error status has no data (10_state R29). -/
def errorHasNoData (r : Response) : Bool := decide (r.status = .ok) || decide (r.data = .none)

end Sys2Proof.Machine
end

