-- ==== Sys2Proof/WellFormed.lean ====
section
/-! DEFINITION. When an instruction is one the encoding can hold. Every operand has the exact width of its
field (30_encoding R70), so the one condition left is that the opcode of `reserved8F` is a reserved one.
A bank, count, format or presence mask that a request refuses is no ill-formed operand: R81 has it
decoded and then refused by the request's own rule. -/

namespace Sys2Proof

/-- The instruction stands for words of its row of spec/opcode_table.json. -/
def Instr.wellFormed : Instr → Bool
  | .reserved8F op => decide (8#4 ≤ op)
  | .selb _ | .rdr _ | .wrr _ _ | .rmw _ _ _ _ | .brd _ _ | .cfgf _ | .rdf _ | .reserved0
  | .spiRead _ | .spiWrite _ => true

end Sys2Proof
end

