-- ==== Sys2Proof/Decode.lean ====
section
/-! DEFINITION. Decoding of request words (30_encoding R70 to R74) and of command bytes (R77), then the
encoders, then the host's numbering of opcode-table words. -/

namespace Sys2Proof

/-! ## Fields of the request word (R70) -/

/-- `OP`, bits 3:0 -/
def fieldOP (w : ReqWord) : BitVec 4 := w.extractLsb' 0 4

/-- `SH`, bits 6:4 -/
def fieldSH (w : ReqWord) : BitVec 3 := w.extractLsb' 4 3

/-- `RSV`, bit 7, ignored (R73) -/
def fieldRSV (w : ReqWord) : BitVec 1 := w.extractLsb' 7 1

/-- `A`, bits 15:8 -/
def fieldA (w : ReqWord) : Byte := w.extractLsb' 8 8

/-- `B`, bits 23:16 -/
def fieldB (w : ReqWord) : Byte := w.extractLsb' 16 8

/-- `C`, bits 31:24 -/
def fieldC (w : ReqWord) : Byte := w.extractLsb' 24 8

/-! ## Decoding -/

/-- The request a word stands for (R71, R72). Total: every word is one of the seven requests or a
reserved opcode (R81). -/
def decodeRequest (w : ReqWord) : Instr :=
  match (fieldOP w).toNat with
  | 0 => .reserved0
  | 1 => .selb (fieldA w)
  | 2 => .rdr (fieldA w)
  | 3 => .wrr (fieldA w) (fieldB w)
  | 4 => .rmw (fieldC w) (fieldA w) (fieldB w) (fieldSH w)
  | 5 => .brd (fieldA w) (fieldB w)
  | 6 => .cfgf (fieldA w)
  | 7 => .rdf ((fieldC w).extractLsb' 0 6)
  | _ => .reserved8F (fieldOP w)

/-- The frame a command byte begins (R77): bit 7 is `R`, bits 6:0 are `ADDR`. Every one of the 256
values is a legal frame. -/
def decodeCommand (c : Byte) : Instr :=
  if c.getLsbD 7 then .spiRead (c.extractLsb' 0 7) else .spiWrite (c.extractLsb' 0 7)

/-- The two encodings of the RAC: a request word, and the command byte of a frame. -/
inductive Encoded where
  | request (w : ReqWord)
  | command (c : Byte)
deriving DecidableEq, Repr

/-- Decoding of either encoding. -/
def decode : Encoded → Instr
  | .request w => decodeRequest w
  | .command c => decodeCommand c

/-! ## Encoding -/

/-- `word = zext_32(OP) | zext_32(SH) << 4 | ... | zext_32(C) << 24` with `RSV` = 0 (R70, R73). -/
def requestWord (op : BitVec 4) (sh : BitVec 3) (a b c : Byte) : ReqWord :=
  op.setWidth 32 ||| sh.setWidth 32 <<< 4 ||| a.setWidth 32 <<< 8 ||| b.setWidth 32 <<< 16
    ||| c.setWidth 32 <<< 24

/-- The command byte `(is_read ? 0x80 : 0x00) | (address & 0x7F)` of R77, at a 7-bit address. -/
def commandByte (isRead : Bool) (a : Addr) : Byte :=
  (if isRead then 0x80#8 else 0x00#8) ||| a.setWidth 8

/-- The encoding of an instruction, ignored bits zero (R83). -/
def encode : Instr → Encoded
  | .selb bank => .request (requestWord 1 0 bank 0 0)
  | .rdr addr => .request (requestWord 2 0 addr 0 0)
  | .wrr addr data => .request (requestWord 3 0 addr data 0)
  | .rmw mask addr value shift => .request (requestWord 4 shift addr value mask)
  | .brd addr count => .request (requestWord 5 0 addr count 0)
  | .cfgf format => .request (requestWord 6 0 format 0 0)
  | .rdf present => .request (requestWord 7 0 0 0 (present.setWidth 8))
  | .reserved0 => .request (requestWord 0 0 0 0 0)
  | .reserved8F op => .request (requestWord op 0 0 0 0)
  | .spiRead addr => .command (commandByte true addr)
  | .spiWrite addr => .command (commandByte false addr)

/-! ## The host's words -/

/-- Why bits are no encoding of the RAC: it has 32-bit request words and 8-bit command bytes only. -/
inductive DecodeError where
  | width (nbits : Nat)
deriving DecidableEq, Repr

/-- Which encoding `nbits` bits of the opcode table stand for (assumption log 15). More than 8 bits are a
request word. The table gives bits above bit 7 to no request row, so 8 bits may also be the low byte of
a request word whose other bits are zero: they are read so where the bits a request does not read are
zero (`RSV` = 0, and `SH` = 0 but for RMW, R73), and as a command byte everywhere else. -/
def tableWord (nbits w : Nat) : Except DecodeError Encoded :=
  let r : ReqWord := BitVec.ofNat 32 w
  if nbits = 0 ∨ 32 < nbits then .error (.width nbits)
  else if 8 < nbits then .ok (.request r)
  else if fieldRSV r = 0 ∧ (fieldSH r = 0 ∨ fieldOP r = 4) then .ok (.request r)
  else .ok (.command (BitVec.ofNat 8 w))

/-- The instruction of a word numbered as spec/opcode_table.json numbers it. -/
def decodeTableWord (nbits w : Nat) : Option Instr :=
  match tableWord nbits w with
  | .ok e => some (decode e)
  | .error _ => none

end Sys2Proof
end

