-- ==== Sys2Proof/Machine/Operands.lean ====
section
/-! DEFINITION. Operand forms: device addresses, argument checks, the read-modify-write byte, the FIFO
packet formats (30_encoding R72, R79, R80; 45_fifo_decoder R131). -/

namespace Sys2Proof.Machine

/-! ## Addresses and frames -/

/-- `a = A & 0x7F` (30_encoding R72). -/
def deviceAddr (A : Byte) : Addr := A.setWidth 7

/-- The read frame of n payload bytes at address a: `[0x80 | a] ++ [DUMMY_TX] * n` (R75). -/
def readFrame (p : Params) (a : Addr) (n : Nat) : Bytes :=
  commandByte true a :: List.replicate n p.dummyTx

/-- The write frame of one byte d at address a: `[a, d]` (R76). -/
def writeFrame (a : Addr) (d : Byte) : Bytes := [commandByte false a, d]

/-- The payload of a read: `rx[1 .. n]`, the don't-care byte `rx[0]` dropped (R75). -/
def payload (rx : Bytes) : Bytes := rx.drop 1

/-! ## Argument checks -/

/-- SELB refuses `bank > 4` (40 R91). -/
def bankRefused (bank : Byte) : Bool := decide (4#8 < bank)

/-- BRD refuses `count < 2` (40 R110). -/
def countRefused (count : Byte) : Bool := decide (count < 2#8)

/-- CFGF refuses a format that is not 1, 2, 3 or 4 (45 R132). -/
def formatRefused (format : Byte) : Bool := !(decide (1#8 ≤ format) && decide (format ≤ 4#8))

/-! ## Read-modify-write (30_encoding R79, 40 R101) -/

/-- `x << s` on 8 bits, bits past bit 7 lost (00_scope R8). -/
def shl8 (x : Byte) (s : BitVec 3) : Byte := x <<< s.toNat

/-- `n = (RBYTE & ~m) | v` for `m = mask << shift` and `v = value << shift`; `value` is not masked. -/
def rmwByte (r mask value : Byte) (shift : BitVec 3) : Byte :=
  (r &&& ~~~(shl8 mask shift)) ||| shl8 value shift

/-! ## Packet formats (45 R131) -/

/-- `FIFO_PATTERN(f)` for f in 1..4 (00_scope R6). -/
def fifoPattern (p : Params) (format : Byte) : Option Byte :=
  match format.toNat with
  | 1 => some p.fifoPattern1
  | 2 => some p.fifoPattern2
  | 3 => some p.fifoPattern3
  | 4 => some p.fifoPattern4
  | _ => none

/-- `FIFO_LEN(f)`: the bytes of a packet, its header included; none where R131 has no format f. -/
def fifoLen (f : Format) : Option Nat :=
  match f.toNat with
  | 1 => some 8
  | 2 => some 8
  | 3 => some 16
  | 4 => some 20
  | _ => none

/-- `REQ(f)`: the fields the requester must supply, as a presence mask (R131, R141). -/
def requiredFields (f : Format) : Option Presence :=
  match f.toNat with
  | 1 => some 0x05#6
  | 2 => some 0x06#6
  | 3 => some 0x0F#6
  | 4 => some 0x37#6
  | _ => none

/-- Where a field stands in a packet of format f, as the indexes of its first and last byte (R131);
none where the format does not deliver it. -/
def fieldRange (f : Format) (x : Field) : Option (Nat × Nat) :=
  match f.toNat, x with
  | 1, .accel => some (1, 6)
  | 1, .temp => some (7, 7)
  | 2, .gyro => some (1, 6)
  | 2, .temp => some (7, 7)
  | 3, .accel => some (1, 6)
  | 3, .gyro => some (7, 12)
  | 3, .temp => some (13, 13)
  | 3, .timestamp => some (14, 15)
  | 4, .accel => some (1, 6)
  | 4, .gyro => some (7, 12)
  | 4, .temp => some (13, 14)
  | 4, .extended => some (15, 16)
  | 4, .extra => some (17, 19)
  | _, _ => none

/-- The bit of a field in the presence mask (30_encoding R80). -/
def fieldBit : Field → Nat
  | .accel => 0
  | .gyro => 1
  | .temp => 2
  | .timestamp => 3
  | .extended => 4
  | .extra => 5

/-- `L[i..j]`, from i to j inclusive (00_scope R7). -/
def slice (l : Bytes) (i j : Nat) : Bytes := (l.drop i).take (j + 1 - i)

/-- The bytes of one field of packet P in format f (R144); absent where the format does not deliver it. -/
def packetField (f : Format) (P : Bytes) (x : Field) : Option Bytes :=
  (fieldRange f x).map fun r => slice P r.1 r.2

/-- The field record of packet P in format f (R144). -/
def packetRecord (f : Format) (P : Bytes) : FieldRecord where
  accel := packetField f P .accel
  gyro := packetField f P .gyro
  temp := packetField f P .temp
  timestamp := packetField f P .timestamp
  extended := packetField f P .extended
  extra := packetField f P .extra

/-- One field of a record. -/
def recordField (r : FieldRecord) : Field → Option Bytes
  | .accel => r.accel
  | .gyro => r.gyro
  | .temp => r.temp
  | .timestamp => r.timestamp
  | .extended => r.extended
  | .extra => r.extra

/-- `(present & REQ) = REQ`: every required field is supplied (R142). -/
def fieldsSupplied (present req : Presence) : Bool := decide (present &&& req = req)

end Sys2Proof.Machine
end

