-- ==== Sys2Proof/Machine/Ops.lean ====
section
/-! DEFINITION. The shared operations of the sequencer: taking a request, the chip-select bracket of a
transaction, ending a request with a response or an error, taking the response, and what runs next. -/

namespace Sys2Proof.Machine

/-! ## The scratch buffers (10_state R31) -/

/-- The buffer whose first bytes are the list l and whose other bytes are those of `rest`. -/
def fill (l : Bytes) (rest : Buffer) : Buffer :=
  ⟨((l ++ rest.toList.drop l.length).take 256).toArray, by simp; omega⟩

/-- The tx list in `TXBUF`: the transaction on the transport port (10_state R27). -/
def State.tx (s : State) : Bytes := s.txbuf.toList.take s.txlen

/-- The rx list in `RXBUF`. -/
def State.rx (s : State) : Bytes := s.rxbuf.toList.take s.rxlen

/-! ## Moves of the sequencer -/

/-- The request port takes a request: `IDLE` to `STEP(1)` (10_state R28). -/
def accept (i : Instr) (s : State) : State := { s with seq := .step 1, req := some i }

/-- A step with no transaction has completed (40 R90). -/
def toStep (k : Nat) (s : State) : State := { s with seq := .step k }

/-- `STEP(k)` to `XFER(k)`: CS driven low, the tx list presented on the transport port (R90). No byte
of `RXBUF` is received yet, so its contents are a free value, as are the bytes of `TXBUF` past the tx list
(10_state R31, log 8, log 25). -/
def present (k : Nat) (tx : Bytes) (s : State) : State :=
  { s with
    seq := .xfer k
    cs := .low
    txbuf := fill tx (Config.freeTx s.draws)
    txlen := tx.length
    rxbuf := Config.freeRx s.draws
    rxlen := 0
    draws := s.draws + 1 }

/-- The transaction on the port is over with the given outcome: CS driven high, the transaction
observed (00_scope R10, R11). `TXBUF` held it alone, so its contents are a free value from here on. -/
def endXfer (o : Answer) (s : State) : State :=
  { s with
    cs := .high
    txbuf := Config.freeTx s.draws
    txlen := 0
    answers := s.answers.drop 1
    trace := s.trace ++ [⟨s.tx, o⟩]
    draws := s.draws + 1 }

/-- `RXBUF` takes the received list; its bytes past the list are a free value (10_state R31, log 8,
log 25). -/
def receive (rx : Bytes) (s : State) : State :=
  { s with
    rxbuf := fill rx (Config.freeRx s.draws)
    rxlen := rx.length
    draws := s.draws + 1 }

/-- `RBYTE <- b` (40 R101). -/
def latchByte (b : Byte) (s : State) : State := { s with rbyte := b }

/-- `RMW_WR` has used `RBYTE`: its value is unspecified from here on (10_state R32, log 8). -/
def releaseByte (s : State) : State :=
  { s with rbyte := Config.freeByte s.draws, draws := s.draws + 1 }

/-- `FMT <- v` (45 R134). -/
def setFmt (f : Format) (s : State) : State := { s with fmt := f }

/-- `respond(status, data)`: the response is latched, `SEQ` becomes `RESPOND`, and the request's
operands and the scratch buffers hold nothing more (10_state R21, R29, R31). -/
def respond (st : Status) (d : Data) (s : State) : State :=
  { s with
    seq := .respond
    resp := some ⟨st, d⟩
    req := none
    txbuf := Config.freeTx s.draws
    txlen := 0
    rxbuf := Config.freeRx s.draws
    rxlen := 0
    draws := s.draws + 1 }

/-- `raise S`: error completion, the RAC's only form of trap entry (60_exceptions R163, R168). -/
def raise (st : Status) (s : State) : State := respond st .none s

/-- The requester takes the response, the return from it (60 R169; 10_state R25, R33): `pc` advances
by 1 whatever the status. -/
def takeResponse (s : State) : Result :=
  match s.resp with
  | some r =>
    .next { s with seq := .idle, resp := none, responses := s.responses ++ [r], pc := s.pc + 1 }
  | none => .refused .noResponse

/-! ## The transport port -/

/-- `XFER(k)` (40 R90, 10_state R27): with no answer the RAC waits, CS low; on Fail it raises
`CommsFailure`; on Ok the step goes on with the received list. -/
def exchange (onOk : Bytes → State → Result) (s : State) : Result :=
  match s.answers with
  | [] => .next s
  | .fail :: _ => .next (raise .commsFailure (endXfer .fail s))
  | .ok rx :: _ =>
    if rx.length = s.tx.length then onOk rx (receive rx (endXfer (.ok rx) s))
    else .fault .answerLength

/-- The one payload byte `r[1]` of a 2-byte read goes on to `k` (40 R95, R101). -/
def withReadByte (rx : Bytes) (k : Byte → Result) : Result :=
  match rx with
  | _ :: b :: _ => k b
  | _ => .fault .shortRead

/-! ## Running a request -/

/-- Request `i` makes its next transition: the port takes it in `IDLE`; in `STEP(k)` its step list
runs; in `XFER(k)` the answer is awaited and then used (10_state R25, R28). -/
def runRequest (i : Instr) (stepList : Nat → State → Result)
    (answered : Nat → Bytes → State → Result) (s : State) : Result :=
  match s.seq with
  | .idle => .next (accept i s)
  | .step k => if s.req = some i then stepList k s else .refused .requestWhileBusy
  | .xfer k => if s.req = some i then exchange (answered k) s else .refused .requestWhileBusy
  | .respond => .refused .requestWhileBusy

/-! ## What runs next -/

/-- What the machine does in a step. -/
inductive Fetched where
  /-- it runs this instruction -/
  | run (i : Instr)
  /-- it waits in `IDLE`: no request is presented -/
  | wait
  /-- the requester takes the response -/
  | take
  /-- the sequencer is where no rule puts it -/
  | stuck

/-- Who moves (00_scope R5; 10_state R25): in `IDLE` the word at `pc` is on the request port; in
`STEP(k)` the request in progress runs; in `XFER(k)` the frame in `TXBUF` is on the transport port. -/
def fetch (s : State) : Fetched :=
  match s.seq with
  | .idle =>
    match s.program[s.pc]? with
    | some w => .run (decodeRequest w)
    | none => .wait
  | .step _ =>
    match s.req with
    | some i => .run i
    | none => .stuck
  | .xfer _ =>
    match s.tx with
    | c :: _ => .run (decodeCommand c)
    | [] => .stuck
  | .respond => .take

/-- Lays word `w` at the requester's position (70 R193), words before it that are missing filled with
zeros. -/
def placeWord (w : ReqWord) (s : State) : List ReqWord :=
  s.program.take s.pc ++ List.replicate (s.pc - s.program.length) 0 ++ w :: s.program.drop (s.pc + 1)

/-- A waiting RAC (10_state R25, R26) with word `w` on its request port. -/
def presentWord (w : ReqWord) (s : State) : State :=
  { s with seq := .idle, cs := .high, resp := none, req := none, program := placeWord w s }

/-- A RAC in the middle of request `i`, with the 2-byte frame `tx` of its step 1 on the transport port. -/
def presentFrame (i : Instr) (tx : Bytes) (s : State) : State :=
  { s with
    seq := .xfer 1
    cs := .low
    resp := none
    req := some i
    txbuf := fill tx s.txbuf
    txlen := tx.length }

/-- The next step runs this encoding (assumption log 16): a request word goes on the request port; a
command byte goes on the transport port, as the first byte of the frame of the RDR, or of the WRR of
0x00, that emits it. -/
def placeEncoded (e : Encoded) (s : State) : State :=
  match e with
  | .request w => presentWord w s
  | .command c =>
    match decodeCommand c with
    | .spiRead a => presentFrame (.rdr (a.setWidth 8)) [c, 0x00#8] s
    | .spiWrite a => presentFrame (.wrr (a.setWidth 8) 0x00#8) [c, 0x00#8] s
    | _ => s

end Sys2Proof.Machine
end

