-- ==== Sys2Proof/Machine/Fifo.lean ====
section
/-! DEFINITION. The requests of the FIFO decoder unit: CFGF, RDF (45_fifo_decoder). -/

namespace Sys2Proof.Machine

/-! ## CFGF (R132 to R136) -/

/-- The steps of CFGF: the format check, bank 0, the read-modify-write of the FIFO mode (steps 3 to 5),
the format's pattern, and `FMT`. -/
def cfgfSteps (format : Byte) (k : Nat) (s : State) : Result :=
  match k with
  | 1 => if formatRefused format then .next (raise .invalidArgument s) else .next (toStep 2 s)
  | 2 => .next (present 2 (writeFrame s.cfg.bankSelAddr 0x00#8) s)
  | 3 => .next (present 3 (readFrame s.cfg s.cfg.fifoModeAddr 1) s)
  | 4 => .next (toStep 5 s)
  | 5 =>
    .next (present 5
      (writeFrame s.cfg.fifoModeAddr
        (rmwByte s.rbyte s.cfg.fifoModeMask s.cfg.fifoModeStream s.cfg.fifoModeShift))
      (releaseByte s))
  | 6 =>
    match fifoPattern s.cfg format with
    | some pattern => .next (present 6 (writeFrame s.cfg.fifoFmtAddr pattern) s)
    | none => .refused .noSuchStep
  | 7 => .next (respond .ok .none (setFmt (format.setWidth 3) s))
  | _ => .refused .noSuchStep

/-- CFGF answered Ok. -/
def cfgfAnswered (k : Nat) (rx : Bytes) (s : State) : Result :=
  match k with
  | 2 => .next (toStep 3 s)
  | 3 => withReadByte rx fun b => .next (toStep 4 (latchByte b s))
  | 5 => .next (toStep 6 s)
  | 6 => .next (toStep 7 s)
  | _ => .refused .noSuchStep

/-- `CFGF format` (R132, R133). -/
def execCfgf (format : Byte) (s : State) : Result :=
  runRequest (.cfgf format) (cfgfSteps format) cfgfAnswered s

/-! ## RDF (R140 to R147) -/

/-- The steps of RDF: bank 0, the `NotConfigured` check, the presence check, the burst, the slicing of
the packet in `RXBUF` (assumption log 9). -/
def rdfSteps (fields : Presence) (k : Nat) (s : State) : Result :=
  match k with
  | 1 => .next (present 1 (writeFrame s.cfg.bankSelAddr 0x00#8) s)
  | 2 => if s.fmt = 0 then .next (raise .notConfigured s) else .next (toStep 3 s)
  | 3 =>
    match requiredFields s.fmt with
    | some req =>
      if fieldsSupplied fields req then .next (toStep 4 s) else .next (raise .invalidArgument s)
    | none => .fault .fmtInvalid
  | 4 =>
    match fifoLen s.fmt with
    | some len => .next (present 4 (readFrame s.cfg s.cfg.fifoDataAddr len) s)
    | none => .fault .fmtInvalid
  | 5 => .next (respond .ok (.fields (packetRecord s.fmt (payload s.rx))) s)
  | _ => .refused .noSuchStep

/-- RDF answered Ok; the packet stays in `RXBUF`. -/
def rdfAnswered (k : Nat) (_rx : Bytes) (s : State) : Result :=
  match k with
  | 1 => .next (toStep 2 s)
  | 4 => .next (toStep 5 s)
  | _ => .refused .noSuchStep

/-- `RDF fields` (R140 to R144). -/
def execRdf (fields : Presence) (s : State) : Result :=
  runRequest (.rdf fields) (rdfSteps fields) rdfAnswered s

end Sys2Proof.Machine
end

