-- ==== Sys2Proof/Machine/RegisterAccess.lean ====
section
/-! DEFINITION. The requests of the register-access unit: SELB, RDR, WRR, RMW, BRD
(40_register_access). Each has its step list and what it does when a transaction is answered Ok. -/

namespace Sys2Proof.Machine

/-! ## SELB (R91) -/

/-- The steps of SELB. -/
def selbSteps (bank : Byte) (k : Nat) (s : State) : Result :=
  match k with
  | 1 => if bankRefused bank then .next (raise .invalidArgument s) else .next (toStep 2 s)
  | 2 => .next (present 2 (writeFrame s.cfg.bankSelAddr bank) s)
  | _ => .refused .noSuchStep

/-- SELB answered Ok; the received bytes are not inspected. -/
def selbAnswered (k : Nat) (_rx : Bytes) (s : State) : Result :=
  match k with
  | 2 => .next (respond .ok .none s)
  | _ => .refused .noSuchStep

/-- `SELB bank` (R91). -/
def execSelb (bank : Byte) (s : State) : Result :=
  runRequest (.selb bank) (selbSteps bank) selbAnswered s

/-! ## RDR (R95) -/

/-- The step of RDR. -/
def rdrSteps (addr : Byte) (k : Nat) (s : State) : Result :=
  match k with
  | 1 => .next (present 1 (readFrame s.cfg (deviceAddr addr) 1) s)
  | _ => .refused .noSuchStep

/-- RDR answered Ok: `r[0]` dropped, `r[1]` returned. -/
def rdrAnswered (k : Nat) (rx : Bytes) (s : State) : Result :=
  match k with
  | 1 => withReadByte rx fun b => .next (respond .ok (.byte b) s)
  | _ => .refused .noSuchStep

/-- `RDR addr` (R95). -/
def execRdr (addr : Byte) (s : State) : Result :=
  runRequest (.rdr addr) (rdrSteps addr) rdrAnswered s

/-! ## WRR (R98) -/

/-- The step of WRR. -/
def wrrSteps (addr data : Byte) (k : Nat) (s : State) : Result :=
  match k with
  | 1 => .next (present 1 (writeFrame (deviceAddr addr) data) s)
  | _ => .refused .noSuchStep

/-- WRR answered Ok; the received bytes are not inspected. -/
def wrrAnswered (k : Nat) (_rx : Bytes) (s : State) : Result :=
  match k with
  | 1 => .next (respond .ok .none s)
  | _ => .refused .noSuchStep

/-- `WRR addr, data` (R98). -/
def execWrr (addr data : Byte) (s : State) : Result :=
  runRequest (.wrr addr data) (wrrSteps addr data) wrrAnswered s

/-! ## RMW (R101, R102) -/

/-- The steps of RMW: `RMW_RD`, `RMW_MOD` (computes, no transaction), `RMW_WR`. The byte n of
`RMW_MOD` is no state of its own: `RMW_WR` forms it from `RBYTE` and uses `RBYTE` up (10_state R32,
assumption log 10). -/
def rmwSteps (mask addr value : Byte) (shift : BitVec 3) (k : Nat) (s : State) : Result :=
  match k with
  | 1 => .next (present 1 (readFrame s.cfg (deviceAddr addr) 1) s)
  | 2 => .next (toStep 3 s)
  | 3 =>
    .next (present 3 (writeFrame (deviceAddr addr) (rmwByte s.rbyte mask value shift))
      (releaseByte s))
  | _ => .refused .noSuchStep

/-- RMW answered Ok: the read latches `RBYTE`; the write ends the request. -/
def rmwAnswered (k : Nat) (rx : Bytes) (s : State) : Result :=
  match k with
  | 1 => withReadByte rx fun b => .next (toStep 2 (latchByte b s))
  | 3 => .next (respond .ok .none s)
  | _ => .refused .noSuchStep

/-- `RMW mask, addr, value, shift` (R101). -/
def execRmw (mask addr value : Byte) (shift : BitVec 3) (s : State) : Result :=
  runRequest (.rmw mask addr value shift) (rmwSteps mask addr value shift) rmwAnswered s

/-! ## BRD (R110) -/

/-- The steps of BRD. -/
def brdSteps (addr count : Byte) (k : Nat) (s : State) : Result :=
  match k with
  | 1 => if countRefused count then .next (raise .invalidArgument s) else .next (toStep 2 s)
  | 2 => .next (present 2 (readFrame s.cfg (deviceAddr addr) count.toNat) s)
  | _ => .refused .noSuchStep

/-- BRD answered Ok: `r[1 .. count]` returned. -/
def brdAnswered (k : Nat) (rx : Bytes) (s : State) : Result :=
  match k with
  | 2 => .next (respond .ok (.bytes (payload rx)) s)
  | _ => .refused .noSuchStep

/-- `BRD addr, count` (R110). -/
def execBrd (addr count : Byte) (s : State) : Result :=
  runRequest (.brd addr count) (brdSteps addr count) brdAnswered s

end Sys2Proof.Machine
end

