-- ==== Sys2Proof/Machine/Reserved.lean ====
section
/-! DEFINITION. The reserved request opcodes (30_encoding R74): InvalidArgument, no transaction. -/

namespace Sys2Proof.Machine

/-- The one step of a reserved request: `raise InvalidArgument(reserved OP)` (assumption log 13). -/
def reservedSteps (k : Nat) (s : State) : Result :=
  match k with
  | 1 => .next (raise .invalidArgument s)
  | _ => .refused .noSuchStep

/-- A reserved request makes no transaction. -/
def reservedAnswered (_k : Nat) (_rx : Bytes) (_s : State) : Result := .refused .noSuchStep

/-- The reserved opcode 0x0 (R74). -/
def execReserved0 (s : State) : Result := runRequest .reserved0 reservedSteps reservedAnswered s

/-- The reserved opcodes 0x8 to 0xF (R74). -/
def execReserved8F (op : BitVec 4) (s : State) : Result :=
  runRequest (.reserved8F op) reservedSteps reservedAnswered s

end Sys2Proof.Machine
end

