-- ==== Sys2Proof/Machine/Frames.lean ====
section
/-! DEFINITION. The frames the RAC emits (30_encoding R75 to R78): SPI_READ and SPI_WRITE. A frame is run
while it is on the transport port; its answer goes to the step of the request that presented it
(40_register_access R90; assumption log 14). -/

namespace Sys2Proof.Machine

/-- What the request in progress does when its transaction of step k is answered Ok. -/
def answered (i : Instr) (k : Nat) (rx : Bytes) (s : State) : Result :=
  match i with
  | .selb _ => selbAnswered k rx s
  | .rdr _ => rdrAnswered k rx s
  | .wrr _ _ => wrrAnswered k rx s
  | .rmw _ _ _ _ => rmwAnswered k rx s
  | .brd _ _ => brdAnswered k rx s
  | .cfgf _ => cfgfAnswered k rx s
  | .rdf _ => rdfAnswered k rx s
  | .reserved0 => reservedAnswered k rx s
  | .reserved8F _ => reservedAnswered k rx s
  | .spiRead _ => .refused .nothingInProgress
  | .spiWrite _ => .refused .nothingInProgress

/-- The frame with command byte `c` runs: the transaction of `TXBUF` is exchanged for the request in
progress. -/
def runFrame (c : Byte) (s : State) : Result :=
  match s.seq with
  | .xfer k =>
    if s.tx.head? = some c then
      match s.req with
      | some i => exchange (answered i k) s
      | none => .refused .nothingInProgress
    else .refused .frameNotPresented
  | _ => .refused .frameNotPresented

/-- The read frame at `addr` (R75). -/
def execSpiRead (addr : Addr) (s : State) : Result := runFrame (commandByte true addr) s

/-- The write frame at `addr` (R76). -/
def execSpiWrite (addr : Addr) (s : State) : Result := runFrame (commandByte false addr) s

end Sys2Proof.Machine
end

