-- ==== Sys2Proof/Machine/Dispatch.lean ====
section
/-! DEFINITION. The meaning of each instruction, one arm per constructor of Instr. -/

namespace Sys2Proof.Machine

def exec (i : Instr) (s : State) : Host.Outcome State Fault Refusal :=
  match i with
  | .selb bank => Sys2Proof.Machine.execSelb bank s
  | .rdr addr => Sys2Proof.Machine.execRdr addr s
  | .wrr addr data => Sys2Proof.Machine.execWrr addr data s
  | .rmw mask addr value shift => Sys2Proof.Machine.execRmw mask addr value shift s
  | .brd addr count => Sys2Proof.Machine.execBrd addr count s
  | .cfgf format => Sys2Proof.Machine.execCfgf format s
  | .rdf fields => Sys2Proof.Machine.execRdf fields s
  | .reserved0 => Sys2Proof.Machine.execReserved0 s
  | .reserved8F op => Sys2Proof.Machine.execReserved8F op s
  | .spiRead addr => Sys2Proof.Machine.execSpiRead addr s
  | .spiWrite addr => Sys2Proof.Machine.execSpiWrite addr s

end Sys2Proof.Machine
end

