-- ==== Sys2Proof/Machine/Step.lean ====
section
/-! DEFINITION. One step of the machine: one transition of the sequencer (10_state R25, 40_register_access
R90), made by whoever moves in it (00_scope R5; assumption log 1). -/

namespace Sys2Proof.Machine

/-- One step. In `IDLE` with no request presented the RAC waits (70 R182, R194). -/
def step (s : State) : Host.Outcome State Fault Refusal :=
  match fetch s with
  | .run i => exec i s
  | .wait => .next s
  | .take => takeResponse s
  | .stuck => .refused .nothingInProgress

/-- The state in which the next step runs the instruction of this table word (assumption log 16). -/
def State.withFetchWord (s : State) (nbits w : Nat) : State :=
  match tableWord nbits w with
  | .ok e => placeEncoded e s
  | .error _ => s

end Sys2Proof.Machine
end

