-- ==== Sys2Proof/Machine/Assembler.lean ====
section
/-! DEFINITION. The requester's side of the request word: the assembler's lines (30_encoding R83), the
pseudo-instructions and what the requester makes of their data (R84). -/

namespace Sys2Proof.Machine

/-- One assembly line: a mnemonic with unsigned operands (R83). -/
inductive AsmLine where
  | selb (bank : Nat)
  | rdr (addr : Nat)
  | wrr (addr data : Nat)
  | rmw (mask addr value shift : Nat)
  | brd (addr count : Nat)
  | cfgf (format : Nat)
  | rdf (fields : Nat)
deriving DecidableEq, Repr

/-- The number that field names joined by `|` stand for (R80, R83). -/
def fieldNames (l : List Field) : Nat := l.foldl (fun n x => n ||| 2 ^ fieldBit x) 0

/-- The operand fits a field of n bits. -/
def fits (x n : Nat) : Bool := decide (x < 2 ^ n)

/-- The word of a line: an operand that does not fit its field is refused, every ignored bit is zero
(R83; for RDF the field is `C`, of which bits 7:6 are ignored, R73: assumption log 23). -/
def assemble : AsmLine → Option ReqWord
  | .selb bank =>
    if fits bank 8 then some (requestWord 1 0 (BitVec.ofNat 8 bank) 0 0) else none
  | .rdr addr =>
    if fits addr 8 then some (requestWord 2 0 (BitVec.ofNat 8 addr) 0 0) else none
  | .wrr addr data =>
    if fits addr 8 && fits data 8 then
      some (requestWord 3 0 (BitVec.ofNat 8 addr) (BitVec.ofNat 8 data) 0)
    else none
  | .rmw mask addr value shift =>
    if fits mask 8 && fits addr 8 && fits value 8 && fits shift 3 then
      some (requestWord 4 (BitVec.ofNat 3 shift) (BitVec.ofNat 8 addr) (BitVec.ofNat 8 value)
        (BitVec.ofNat 8 mask))
    else none
  | .brd addr count =>
    if fits addr 8 && fits count 8 then
      some (requestWord 5 0 (BitVec.ofNat 8 addr) (BitVec.ofNat 8 count) 0)
    else none
  | .cfgf format =>
    if fits format 8 then some (requestWord 6 0 (BitVec.ofNat 8 format) 0 0) else none
  | .rdf fields =>
    if fits fields 8 then some (requestWord 7 0 0 0 ((BitVec.ofNat 6 fields).setWidth 8)) else none

/-- The pseudo-instructions (R84); `cfg` and `base` are device addresses. -/
inductive Pseudo where
  | setfs (cfg v : Nat)
  | setodr (cfg v : Nat)
  | getfs (cfg : Nat)
  | rdxyz (base : Nat)
deriving DecidableEq, Repr

/-- The requests a pseudo-instruction expands to, in order (R84). -/
def expand : Pseudo → List AsmLine
  | .setfs cfg v => [.selb 0, .rmw 0x07 cfg v 5]
  | .setodr cfg v => [.selb 0, .rmw 0x0F cfg v 0]
  | .getfs cfg => [.selb 0, .rdr cfg]
  | .rdxyz base => [.selb 0, .brd base 6]

/-- The requester of GETFS takes bits [7:5] of the byte (R84). -/
def fullScale (b : Byte) : BitVec 3 := b.extractLsb' 5 3

/-- `256*high + low`, on 16 bits (R84). -/
def sample (high low : Byte) : BitVec 16 := high ++ low

/-- The requester of RDXYZ assembles the three samples of the 6 bytes (R84). -/
def samples : Bytes → Option (BitVec 16 × BitVec 16 × BitVec 16)
  | [x1, x0, y1, y0, z1, z0] => some (sample x1 x0, sample y1 y0, sample z1 z0)
  | _ => none

end Sys2Proof.Machine
end

