-- ==== Sys2Proof/Machine/Requester.lean ====
section
/-! DEFINITION. The requester running a pseudo-instruction: its requests one after the other, stopping at
the first response that is not OK (30_encoding R84; assumption log 24). -/

namespace Sys2Proof.Machine

/-- Steps until the requester takes the response to its request, that is until `pc` moves; at most n
steps. -/
def awaitResponse : Nat → State → Result
  | 0, s => .next s
  | n + 1, s =>
    match step s with
    | .next t => if t.pc = s.pc then awaitResponse n t else .next t
    | .fault r => .fault r
    | .refused r => .refused r

/-- The requester presents word w and waits for its response. No request takes more than 13 steps when its
transactions are answered; one that is not answered leaves the RAC in `XFER(k)` (60 R170). -/
def issue (w : ReqWord) (s : State) : Result := awaitResponse 13 { s with program := placeWord w s }

/-- From `s` to `t` the requester has taken one response, and its status is OK. -/
def answeredOk (s t : State) : Bool :=
  decide (t.pc = s.pc + 1) && decide (t.responses.getLast?.map (·.status) = some .ok)

/-- The requests of a pseudo-instruction, in order: the next one is presented only after an OK response
("propagate the first failure immediately", R84). -/
def issueAll : List ReqWord → State → Result
  | [], s => .next s
  | w :: ws, s =>
    match issue w s with
    | .next t => if answeredOk s t then issueAll ws t else .next t
    | .fault r => .fault r
    | .refused r => .refused r

/-- The words of some lines; none when an operand does not fit its field (R83). -/
def assembleAll : List AsmLine → Option (List ReqWord)
  | [] => some []
  | l :: ls =>
    match assemble l, assembleAll ls with
    | some w, some ws => some (w :: ws)
    | _, _ => none

/-- The requester runs a pseudo-instruction (R84); none when an operand does not fit its field. -/
def runPseudo (p : Pseudo) (s : State) : Option Result :=
  (assembleAll (expand p)).map fun ws => issueAll ws s

end Sys2Proof.Machine
end

