-- ==== Sys2Proof/Safety.lean ====
section
/-! DEFINITION. What a legal state of the RAC is, and what the observed bus tells of the device's bank. -/

namespace Sys2Proof.Machine

/-! ## Where a request can stand -/

/-- `STEP(k)` of request `i` can be reached while `FMT` = `f`: its step list has step k (40, 45), and the
checks before step k have passed. -/
def stepReached (f : Format) (i : Instr) (k : Nat) : Bool :=
  match i with
  | .selb bank => decide (k = 1) || (decide (k = 2) && !bankRefused bank)
  | .rdr _ => decide (k = 1)
  | .wrr _ _ => decide (k = 1)
  | .rmw _ _ _ _ => decide (k = 1) || decide (k = 2) || decide (k = 3)
  | .brd _ count => decide (k = 1) || (decide (k = 2) && !countRefused count)
  | .cfgf format => decide (k = 1) || (decide (2 ≤ k) && decide (k ≤ 7) && !formatRefused format)
  | .rdf fields =>
    decide (k = 1) || decide (k = 2) || (decide (k = 3) && decide (f ≠ 0)) ||
      ((decide (k = 4) || decide (k = 5)) && (requiredFields f).any (fieldsSupplied fields))
  | .reserved0 => decide (k = 1)
  | .reserved8F _ => decide (k = 1)
  | .spiRead _ => false
  | .spiWrite _ => false

/-- The frame that step k of request `i` presents: its command byte and its length; none where the step
makes no transaction (40, 45; 20_memory R58). -/
def stepFrame (p : Params) (f : Format) (i : Instr) (k : Nat) : Option (Byte × Nat) :=
  match i with
  | .selb _ => if k = 2 then some (commandByte false p.bankSelAddr, 2) else none
  | .rdr addr => if k = 1 then some (commandByte true (deviceAddr addr), 2) else none
  | .wrr addr _ => if k = 1 then some (commandByte false (deviceAddr addr), 2) else none
  | .rmw _ addr _ _ =>
    if k = 1 then some (commandByte true (deviceAddr addr), 2)
    else if k = 3 then some (commandByte false (deviceAddr addr), 2)
    else none
  | .brd addr count =>
    if k = 2 then some (commandByte true (deviceAddr addr), count.toNat + 1) else none
  | .cfgf _ =>
    if k = 2 then some (commandByte false p.bankSelAddr, 2)
    else if k = 3 then some (commandByte true p.fifoModeAddr, 2)
    else if k = 5 then some (commandByte false p.fifoModeAddr, 2)
    else if k = 6 then some (commandByte false p.fifoFmtAddr, 2)
    else none
  | .rdf _ =>
    if k = 1 then some (commandByte false p.bankSelAddr, 2)
    else if k = 4 then (fifoLen f).map fun len => (commandByte true p.fifoDataAddr, len + 1)
    else none
  | .reserved0 => none
  | .reserved8F _ => none
  | .spiRead _ => none
  | .spiWrite _ => none

/-- `RXBUF` holds the packet that RDF's last step slices (45 R143, R144). -/
def packetHeld (i : Instr) (k : Nat) (s : State) : Bool :=
  match i with
  | .rdf _ => decide (k = 5 → (fifoLen s.fmt).map (· + 1) = some s.rx.length)
  | _ => true

/-- The frame on the transport port is the one step k of request `i` presents. -/
def framePresented (i : Instr) (k : Nat) (s : State) : Bool :=
  match s.tx with
  | c :: _ => decide (stepFrame s.cfg s.fmt i k = some (c, s.tx.length))
  | [] => false

/-- `SEQ`, the request in progress and the transport port agree (10_state R25, R27). -/
def placed (s : State) : Bool :=
  match s.seq, s.req with
  | .idle, none => true
  | .respond, none => true
  | .step k, some i => stepReached s.fmt i k && packetHeld i k s
  | .xfer k, some i => stepReached s.fmt i k && framePresented i k s
  | _, _ => false

/-! ## The invariant -/

/-- `SEQ` is `XFER(k)` for some k. -/
def inXfer (s : State) : Bool :=
  match s.seq with
  | .xfer _ => true
  | _ => false

/-- `SEQ` is `RESPOND`. -/
def inRespond (s : State) : Bool := decide (s.seq = .respond)

/-- A legal response: never `NotImplemented` (60 R162), and no data with an error (10_state R29). -/
def legalResponse (r : Response) : Bool := decide (r.status ≠ .notImplemented) && errorHasNoData r

/-- What every reachable state of the RAC keeps. -/
structure Inv (s : State) : Prop where
  /-- `FMT` is 0 to 4 (10_state R22) -/
  fmt_legal : s.fmt ≤ 4#3
  /-- CS is low only while `SEQ = XFER(k)` and high in every other state (R26) -/
  cs_low : s.cs = .low ↔ inXfer s = true
  /-- a response is held exactly in `RESPOND` (R25, R29) -/
  resp_held : s.resp.isSome = inRespond s
  /-- the response held is a legal one -/
  resp_legal : s.resp.all legalResponse = true
  /-- the request in progress is at a step of its step list (R25) -/
  placed : placed s = true
  /-- the tx list fits `TXBUF` (R31) -/
  tx_fits : s.txlen ≤ 256
  /-- the rx list fits `RXBUF` (R31) -/
  rx_fits : s.rxlen ≤ 256
  /-- `TXBUF` holds a tx list only while its transaction is on the transport port (R31) -/
  tx_held : s.txlen = 0 ∨ inXfer s = true

/-- The environment keeps its one law for the transaction on the port: an Ok answer has the
transaction's length (00_scope R10, 10_state R27). -/
def answerLegal (s : State) : Bool :=
  match s.answers with
  | .ok rx :: _ => decide (rx.length = s.tx.length)
  | _ => true

/-! ## Words the claims use -/

/-- An answer the environment can give to a transaction of n bytes. -/
def answerFits (o : Answer) (n : Nat) : Prop :=
  match o with
  | .ok rx => rx.length = n
  | .fail => True

/-- The status of a request whose last transaction has outcome `o` (40 R90). -/
def outcomeStatus : Answer → Status
  | .ok _ => .ok
  | .fail => .commsFailure

/-- Instruction `i` runs from `s` through the listed states, one transition each. -/
def execPath (i : Instr) : State → List State → Prop
  | _, [] => True
  | s, t :: l => exec i s = .next t ∧ execPath i t l

/-- What no request touches: the configuration (10_state R20), the requester's program and position, and
the responses it has taken (R33). -/
def keepsSession (s t : State) : Prop :=
  t.cfg = s.cfg ∧ t.program = s.program ∧ t.pc = s.pc ∧ t.responses = s.responses

/-! ## What the bus tells of the device's bank (20_memory R52, 70 R188) -/

/-- What is known of `DEV_BANK`: the RAC holds no copy of it (10_state R24, R35). -/
inductive BankView where
  | unknown
  | known (bank : Byte)
deriving DecidableEq, Repr

/-- Which writes soft-reset the device: the current bank, the address, the byte written. The register and
the bit are in no source (91 N6), so a claim takes it as an argument, and holds for every one. -/
abbrev SoftReset := Byte → Addr → Byte → Bool

/-- After a write of d to the bank-select register (R52): the bank it names where the transport reports Ok;
unknown where it reports Fail, or where d names no bank (93 U19). -/
def bankSelected (d : Byte) : Answer → BankView
  | .ok _ => if bankRefused d then .unknown else .known d
  | .fail => .unknown

/-- After a write of d at another address: the bank is what it was, but unknown after a device soft reset,
whatever the outcome of its transaction (R52, 93 U11, U20). -/
def bankAfterWrite (resets : SoftReset) (a : Addr) (d : Byte) : BankView → BankView
  | .unknown => .unknown
  | .known bank => if resets bank a d then .unknown else .known bank

/-- The effect of one transaction on what is known of `DEV_BANK` (R52, R188; log 20). A read leaves it. -/
def bankAfter (p : Params) (resets : SoftReset) (v : BankView) (t : Transaction) : BankView :=
  match t.tx with
  | [c, d] =>
    if c.getLsbD 7 then v
    else if deviceAddr c = p.bankSelAddr then bankSelected d t.outcome
    else bankAfterWrite resets (deviceAddr c) d v
  | _ => v

/-- What the observed transactions, oldest first, tell of `DEV_BANK` when nothing was known before. -/
def deviceBank (p : Params) (resets : SoftReset) (trace : List Transaction) : BankView :=
  trace.foldl (bankAfter p resets) .unknown

/-- The end of a run: the requester has taken its last response and `SEQ = IDLE` (70 R194). -/
def runEnded (s : State) : Bool := decide (s.seq = .idle) && decide (s.program.length ≤ s.pc)

end Sys2Proof.Machine
end

