-- ==== Sys2Proof/Certificates/Slice0/Obligations.lean ====
section
/-! DEFINITION. The statements for the provers. Statements about a request follow its run from `IDLE`: the
list of states `exec` takes it through, their `SEQ` and `CS`, and the last state, which holds the
response. `TXBUF`, `RXBUF` and `RBYTE` hold free values once unspecified, so no statement says what is in
them then. -/

open Sys2Proof Sys2Proof.Machine

/-! ## Reset and the machine as a whole -/

/-- 10_state R37: the state after reset, but for what that table leaves unspecified; the device's state is
not touched, for reset makes no transaction. -/
def Obligations.ResetStateIsTheSpecs : Prop :=
  State.reset.fmt = 0 ∧ State.reset.seq = .idle ∧ State.reset.cs = .high ∧
    State.reset.resp = none ∧ State.reset.pc = 0 ∧ State.reset.trace = []

/-- The invariant holds at reset. -/
def Obligations.ResetMeetsTheInvariant : Prop := Inv State.reset

/-- Every step from a legal state leaves a legal state. -/
def Obligations.StepKeepsTheInvariant : Prop :=
  ∀ s t : State, Inv s → step s = .next t → Inv t

/-- In a legal state whose environment keeps its law (00_scope R10) the machine always has a next state:
no fault and no refusal is ever reached. -/
def Obligations.LegalStatesAlwaysStep : Prop :=
  ∀ s : State, Inv s → (inXfer s = true → answerLegal s = true) → ∃ t, step s = .next t

/-- 70 R182: after reset the RAC waits in `IDLE`, and the first request may be any word. -/
def Obligations.ResetWaitsForAnyFirstRequest : Prop :=
  State.reset.seq = .idle ∧ step State.reset = .next State.reset ∧
    ∀ (w : ReqWord) (ws : List ReqWord), ∃ t : State,
      step { State.reset with program := w :: ws } = .next t ∧ t.seq = .step 1 ∧
        t.req = some (decodeRequest w)

/-- The step function runs the decoded instruction: in `IDLE` the request at the requester's position, in
`STEP(k)` the request in progress, in `XFER(k)` the frame on the transport port; in `RESPOND` the
response is taken. That in `XFER(k)` the frame runs as an instruction is the model's choice (log 14). -/
def Obligations.StepRunsTheDecodedInstruction : Prop :=
  ∀ (s : State) (i : Instr), i.wellFormed = true →
    (∀ w, s.seq = .idle → s.program[s.pc]? = some w → decode (.request w) = i →
      step s = exec i s) ∧
    (∀ k, s.seq = .step k → s.req = some i → step s = exec i s) ∧
    (∀ k c l, s.seq = .xfer k → s.tx = c :: l → decode (.command c) = i →
      step s = exec i s) ∧
    (s.seq = .respond → step s = takeResponse s)

/-- The host's placement of a word: the next step runs it. Where a word and a frame are placed is the model's
choice (log 6, log 16). -/
def Obligations.PlacedWordRunsNext : Prop :=
  (∀ (s : State) (w : Nat), step (s.withFetchWord 32 w) =
    exec (decodeRequest (BitVec.ofNat 32 w)) (s.withFetchWord 32 w)) ∧
  (∀ (s : State) (a : Addr), step (s.withFetchWord 8 (0x80 + a.toNat)) =
    exec (.spiRead a) (s.withFetchWord 8 (0x80 + a.toNat)))

/-- 10_state R26: CS is low exactly in `XFER(k)`, from reset on. -/
def Obligations.ChipSelectLowExactlyInXfer : Prop :=
  State.reset.cs = .high ∧
    ∀ s t : State, (s.cs = .low ↔ ∃ k, s.seq = .xfer k) → step s = .next t →
      (t.cs = .low ↔ ∃ k, t.seq = .xfer k)

/-- `FMT` changes only in the last step of a CFGF, to its format operand. -/
def Obligations.FmtIsWrittenOnlyByCfgf : Prop :=
  ∀ s t : State, step s = .next t → t.fmt ≠ s.fmt →
    ∃ format, s.req = some (.cfgf format) ∧ s.seq = .step 7 ∧ t.fmt = format.setWidth 3 ∧
      t.resp = some ⟨.ok, .none⟩

/-- `pc` advances by 1 exactly when the requester takes a response, whatever its status, and the taken
response is the one held; then `SEQ` is `IDLE` and no response is pending. -/
def Obligations.TakingTheResponseAdvancesPc : Prop :=
  State.reset.pc = 0 ∧ ∀ s t : State, step s = .next t →
    (s.seq = .respond → ∃ r, s.resp = some r ∧ t.responses = s.responses ++ [r] ∧
      t.pc = s.pc + 1 ∧ t.seq = .idle ∧ t.resp = none ∧ t.fmt = s.fmt ∧ t.cs = s.cs ∧
      t.trace = s.trace ∧ t.cfg = s.cfg ∧ t.program = s.program ∧ t.answers = s.answers ∧
      t.req = s.req ∧ t.rbyte = s.rbyte) ∧
    (s.seq ≠ .respond → t.pc = s.pc ∧ t.responses = s.responses)

/-- Transactions are made one at a time and in order: a step observes at most one, the one on the
transport port, with the next answer. -/
def Obligations.TransactionsAreTotallyOrdered : Prop :=
  ∀ s t : State, step s = .next t →
    (t.trace = s.trace ∧ t.answers = s.answers) ∨
    (∃ k o rest, s.seq = .xfer k ∧ s.answers = o :: rest ∧ t.answers = rest ∧
      t.trace = s.trace ++ [⟨s.tx, o⟩] ∧ t.cs = .high)

/-- 60 R170: a transaction never answered keeps the RAC in `XFER(k)` with CS low and no response, for
ever. -/
def Obligations.UnansweredTransactionHangs : Prop :=
  ∀ (s : State) (k : Nat), Inv s → s.seq = .xfer k → s.answers = [] →
    s.cs = .low ∧ s.resp = none ∧ ∀ n, Host.Core.run Sys2Proof.core n s = .next s

/-- Every transaction presented has 2 to 256 bytes. -/
def Obligations.PresentedFramesHave2To256Bytes : Prop :=
  ∀ s t : State, Inv s → step s = .next t → inXfer t = true →
    t.tx.length = t.txlen ∧ 2 ≤ t.txlen ∧ t.txlen ≤ 256

/-- A response that appears is never `NotImplemented`, and carries no data with an error. -/
def Obligations.NewResponsesAreLegal : Prop :=
  ∀ (s t : State) (r : Response), step s = .next t → s.seq ≠ .respond → t.resp = some r →
    t.seq = .respond →
    r.status ≠ .notImplemented ∧ (r.status ≠ .ok → r.data = .none)

/-- A transaction that fails ends its request with `CommsFailure`, whatever the request: CS is high, the
transaction is observed as failed, and nothing else of the session changes. -/
def Obligations.FailedTransactionEndsItsRequest : Prop :=
  ∀ (s : State) (rest : List Answer), Inv s → inXfer s = true → s.answers = .fail :: rest →
    ∃ t, step s = .next t ∧ t.seq = .respond ∧ t.resp = some ⟨.commsFailure, .none⟩ ∧
      t.cs = .high ∧ t.req = none ∧ t.answers = rest ∧
      t.trace = s.trace ++ [⟨s.tx, .fail⟩] ∧ t.fmt = s.fmt ∧ t.rbyte = s.rbyte ∧
      keepsSession s t

/-- While `SEQ` is not `IDLE` the request port takes nothing: the program has no effect on a step. -/
def Obligations.BusyPortTakesNothing : Prop :=
  ∀ (s t : State) (ws : List ReqWord), s.seq ≠ .idle → step s = .next t →
    step { s with program := ws } = .next { t with program := ws }

/-- Nothing of the past but the state's registers reaches a step: with another record of transactions and
of responses the step is the same, and records the same. -/
def Obligations.PastIsNotRemembered : Prop :=
  ∀ (s t : State) (tr : List Transaction) (rs : List Response), step s = .next t →
    ∃ newTr newRs, t.trace = s.trace ++ newTr ∧ t.responses = s.responses ++ newRs ∧
      step { s with trace := tr, responses := rs } =
        .next { t with trace := tr ++ newTr, responses := rs ++ newRs }

/-- 10_state R31: no step reads a byte of the buffers but those of the tx and rx lists they hold: with any
other bytes past the lists the step is the same, and the lists held after it are the same. -/
def Obligations.BytesPastTheListsAreNotRead : Prop :=
  ∀ (s t : State) (tb rb : Buffer), step s = .next t → tb.toList.take s.txlen = s.tx →
    rb.toList.take s.rxlen = s.rx →
    ∃ u, step { s with txbuf := tb, rxbuf := rb } = .next u ∧
      { u with txbuf := t.txbuf, rxbuf := t.rxbuf } = t ∧ u.tx = t.tx ∧ u.rx = t.rx

/-- Every request presented in a legal state is answered: within 13 steps its one response is taken, when
the environment answers each of its transactions and keeps its law. What a step is, and that the requester
takes a response at once, is the model's reading (log 1). -/
def Obligations.EveryRequestIsAnswered : Prop :=
  ∀ (s : State) (w : ReqWord), Inv s → s.seq = .idle → s.program[s.pc]? = some w →
    (∀ n u, Host.Core.run Sys2Proof.core n s = .next u → u.pc = s.pc → inXfer u = true →
      answerLegal u = true ∧ u.answers ≠ []) →
    ∃ n t r, n ≤ 13 ∧ Host.Core.run Sys2Proof.core n s = .next t ∧ t.seq = .idle ∧
      t.pc = s.pc + 1 ∧ t.responses = s.responses ++ [r]

/-- The frame of every instruction: what `exec` leaves as it was when it answers a next state. -/
def Obligations.ExecFrame : Prop :=
  ∀ (i : Instr) (s t : State), exec i s = .next t →
    keepsSession s t ∧
    (t.fmt = s.fmt ∨ (∃ format, i = .cfgf format ∧ s.seq = .step 7 ∧
      t.fmt = format.setWidth 3)) ∧
    (t.rbyte = s.rbyte ∨ (∃ r, s.req = some r ∧
      ((∃ m a v sh, r = .rmw m a v sh) ∨ ∃ format, r = .cfgf format))) ∧
    ((t.trace = s.trace ∧ t.answers = s.answers) ∨ (∃ k o rest, s.seq = .xfer k ∧
      s.answers = o :: rest ∧ t.answers = rest ∧ t.trace = s.trace ++ [⟨s.tx, o⟩])) ∧
    (t.resp = s.resp ∨ t.seq = .respond) ∧
    (t.cs = s.cs ∨ (∃ k, t.seq = .xfer k ∧ t.cs = .low) ∨ (∃ k, s.seq = .xfer k ∧ t.cs = .high))

/-- 40 R112: what the five register-access requests write, and their statuses. -/
def Obligations.RegisterAccessRequestsWriteNoFmt : Prop :=
  ∀ (i : Instr) (s t : State),
    ((∃ b, i = .selb b) ∨ (∃ a, i = .rdr a) ∨ (∃ a d, i = .wrr a d) ∨
      (∃ m a v sh, i = .rmw m a v sh) ∨ ∃ a c, i = .brd a c) →
    exec i s = .next t →
    t.fmt = s.fmt ∧ keepsSession s t ∧
    ((¬ ∃ m a v sh, i = .rmw m a v sh) → t.rbyte = s.rbyte) ∧
    (t.seq = .respond → ∃ r, t.resp = some r ∧
      (r.status = .ok ∨ r.status = .commsFailure ∨
        (r.status = .invalidArgument ∧ ((∃ b, i = .selb b) ∨ ∃ a c, i = .brd a c))))

/-! ## Encoding -/

/-- Words written out from 30_encoding R70 and R71 (95 L2.1, R83, R77) decode to what they stand for. -/
def Obligations.WorkedWordsDecode : Prop :=
  decodeRequest 0x00000201#32 = .selb 2 ∧ decodeRequest 0x00007502#32 = .rdr 0x75 ∧
    decodeRequest 0x000F4E03#32 = .wrr 0x4E 0x0F ∧
    decodeRequest 0x07035054#32 = .rmw 0x07 0x50 3 5 ∧
    decodeRequest 0x00061F05#32 = .brd 0x1F 6 ∧ decodeRequest 0x00000106#32 = .cfgf 1 ∧
    decodeRequest 0x05000007#32 = .rdf 0x05 ∧ decodeRequest 0x12345670#32 = .reserved0 ∧
    decodeRequest 0xFFFFFFFF#32 = .reserved8F 0xF ∧ decodeRequest 0xC5000007#32 = .rdf 0x05 ∧
    decodeCommand 0xF5#8 = .spiRead 0x75 ∧ decodeCommand 0x75#8 = .spiWrite 0x75

/-- Decoding the encoding of a well-formed instruction gives it back, with every operand at every value
its field admits. -/
def Obligations.DecodeInvertsEncode : Prop :=
  ∀ i : Instr, i.wellFormed = true → decode (encode i) = i

/-- 30_encoding R73: two words that agree on the fields their request reads are the same request, and an
assembled word has zero in every bit its request does not read. -/
def Obligations.IgnoredBitsHaveNoEffect : Prop :=
  (∀ w w' : ReqWord, fieldOP w = fieldOP w' →
    (1 ≤ (fieldOP w).toNat → (fieldOP w).toNat ≤ 6 → fieldA w = fieldA w') →
    ((fieldOP w).toNat = 3 ∨ (fieldOP w).toNat = 4 ∨ (fieldOP w).toNat = 5 →
      fieldB w = fieldB w') →
    ((fieldOP w).toNat = 4 → fieldC w = fieldC w' ∧ fieldSH w = fieldSH w') →
    ((fieldOP w).toNat = 7 → (fieldC w).extractLsb' 0 6 = (fieldC w').extractLsb' 0 6) →
    decodeRequest w = decodeRequest w') ∧
  (∀ (l : AsmLine) (w : ReqWord), assemble l = some w →
    fieldRSV w = 0 ∧ ((fieldOP w).toNat ≠ 4 → fieldSH w = 0) ∧
    ((fieldOP w).toNat = 7 → fieldA w = 0 ∧ fieldB w = 0 ∧ (fieldC w).extractLsb' 6 2 = 0) ∧
    ((fieldOP w).toNat = 1 ∨ (fieldOP w).toNat = 2 ∨ (fieldOP w).toNat = 6 →
      fieldB w = 0 ∧ fieldC w = 0) ∧
    ((fieldOP w).toNat = 3 ∨ (fieldOP w).toNat = 5 → fieldC w = 0))

/-- Every 32-bit word is one of the seven requests or a reserved opcode, the latter exactly for `OP` 0x0
and 0x8 to 0xF. -/
def Obligations.EveryWordDecodes : Prop :=
  ∀ w : ReqWord, (decodeRequest w).isRequest = true ∧ (decodeRequest w).wellFormed = true ∧
    (((decodeRequest w) = .reserved0 ∨ ∃ op, decodeRequest w = .reserved8F op) ↔
      (fieldOP w = 0 ∨ 8#4 ≤ fieldOP w))

/-- 30_encoding R77: the command byte. -/
def Obligations.CommandByteLayout : Prop :=
  (∀ (r : Bool) (address : Byte), commandByte r (deviceAddr address) =
    (if r then 0x80#8 else 0x00#8) ||| (address &&& 0x7F#8)) ∧
  (∀ c : Byte, c < 0x80#8 → decodeCommand c = .spiWrite (deviceAddr c)) ∧
  (∀ c : Byte, 0x80#8 ≤ c → decodeCommand c = .spiRead (deviceAddr c)) ∧
  (∀ c : Byte, encode (decodeCommand c) = .command c)

/-- 30_encoding R75, R76: the two frames byte by byte. -/
def Obligations.FrameBytes : Prop :=
  ∀ (p : Params) (a : Addr),
    (∀ n, readFrame p a n = (0x80#8 ||| a.setWidth 8) :: List.replicate n p.dummyTx ∧
      (readFrame p a n).length = n + 1) ∧
    (∀ d, writeFrame a d = [a.setWidth 8, d] ∧ (a.setWidth 8 : Byte) < 0x80#8) ∧
    (∀ rx : Bytes, payload rx = rx.drop 1)

/-- The assembler's lines (30_encoding R83): a line whose operands fit their fields is a word that
decodes to the request with those operands; any other line is refused. -/
def Obligations.AssemblerWords : Prop :=
  (∀ bank, (assemble (.selb bank)).map decodeRequest =
    if bank < 256 then some (.selb (BitVec.ofNat 8 bank)) else none) ∧
  (∀ addr, (assemble (.rdr addr)).map decodeRequest =
    if addr < 256 then some (.rdr (BitVec.ofNat 8 addr)) else none) ∧
  (∀ addr data, (assemble (.wrr addr data)).map decodeRequest =
    if addr < 256 ∧ data < 256 then some (.wrr (BitVec.ofNat 8 addr) (BitVec.ofNat 8 data))
    else none) ∧
  (∀ mask addr value shift, (assemble (.rmw mask addr value shift)).map decodeRequest =
    if mask < 256 ∧ addr < 256 ∧ value < 256 ∧ shift < 8 then
      some (.rmw (BitVec.ofNat 8 mask) (BitVec.ofNat 8 addr) (BitVec.ofNat 8 value)
        (BitVec.ofNat 3 shift))
    else none) ∧
  (∀ addr count, (assemble (.brd addr count)).map decodeRequest =
    if addr < 256 ∧ count < 256 then some (.brd (BitVec.ofNat 8 addr) (BitVec.ofNat 8 count))
    else none) ∧
  (∀ format, (assemble (.cfgf format)).map decodeRequest =
    if format < 256 then some (.cfgf (BitVec.ofNat 8 format)) else none) ∧
  (∀ fields, (assemble (.rdf fields)).map decodeRequest =
    if fields < 256 then some (.rdf (BitVec.ofNat 6 fields)) else none)

/-- 30_encoding R84: the pseudo-instructions' requests and what the requester makes of their data. -/
def Obligations.PseudoInstructions : Prop :=
  (∀ cfg v, expand (.setfs cfg v) = [.selb 0, .rmw 0x07 cfg v 5]) ∧
  (∀ cfg v, expand (.setodr cfg v) = [.selb 0, .rmw 0x0F cfg v 0]) ∧
  (∀ cfg, expand (.getfs cfg) = [.selb 0, .rdr cfg]) ∧
  (∀ base, expand (.rdxyz base) = [.selb 0, .brd base 6]) ∧
  (∀ b : Byte, (fullScale b).toNat = b.toNat / 32) ∧
  (∀ d0 d1 d2 d3 d4 d5 : Byte, ∃ x y z, samples [d0, d1, d2, d3, d4, d5] = some (x, y, z) ∧
    x.toNat = 256 * d0.toNat + d1.toNat ∧ y.toNat = 256 * d2.toNat + d3.toNat ∧
    z.toNat = 256 * d4.toNat + d5.toNat)

/-- 30_encoding R84: a pseudo-instruction stops at its first response that is not OK: when its bank select
fails, that response is its only one, and its second request is not presented. -/
def Obligations.PseudoStopsAtTheFirstFailure : Prop :=
  ∀ (p : Pseudo) (ws : List ReqWord) (s : State) (rest : List Answer), s.seq = .idle →
    assembleAll (expand p) = some ws → s.answers = .fail :: rest →
    ∃ t, runPseudo p s = some (.next t) ∧ t.seq = .idle ∧ t.pc = s.pc + 1 ∧
      t.responses = s.responses ++ [⟨.commsFailure, .none⟩] ∧ t.cs = .high ∧ t.resp = none ∧
      t.trace = s.trace ++ [⟨[s.cfg.bankSelAddr.setWidth 8, 0x00#8], .fail⟩] ∧
      t.answers = rest ∧ t.fmt = s.fmt ∧ t.cfg = s.cfg

/-- 30_encoding R84: a pseudo-instruction whose bank select is answered OK goes on to its second request:
the field of `cfg` that SETFS and SETODR write, the byte of GETFS, the six bytes of RDXYZ. -/
def Obligations.PseudoRunsItsRequests : Prop :=
  ∀ (s : State) (r1 : Bytes), s.seq = .idle → r1.length = 2 →
    (∀ (cfg v : Nat) (b0 b : Byte) (r3 : Bytes) (rest : List Answer), cfg < 256 → v < 256 →
      s.answers = .ok r1 :: .ok [b0, b] :: .ok r3 :: rest → r3.length = 2 →
      (∃ t, runPseudo (.setfs cfg v) s = some (.next t) ∧ t.seq = .idle ∧ t.pc = s.pc + 2 ∧
        t.responses = s.responses ++ [⟨.ok, .none⟩, ⟨.ok, .none⟩] ∧
        t.trace = s.trace ++ [⟨[s.cfg.bankSelAddr.setWidth 8, 0x00#8], .ok r1⟩,
          ⟨[0x80#8 ||| (BitVec.ofNat 8 cfg &&& 0x7F#8), s.cfg.dummyTx], .ok [b0, b]⟩,
          ⟨[BitVec.ofNat 8 cfg &&& 0x7F#8, (b &&& 0x1F#8) ||| (BitVec.ofNat 8 v <<< 5)],
            .ok r3⟩] ∧ t.answers = rest ∧ t.fmt = s.fmt) ∧
      (∃ t, runPseudo (.setodr cfg v) s = some (.next t) ∧ t.seq = .idle ∧ t.pc = s.pc + 2 ∧
        t.responses = s.responses ++ [⟨.ok, .none⟩, ⟨.ok, .none⟩] ∧
        t.trace = s.trace ++ [⟨[s.cfg.bankSelAddr.setWidth 8, 0x00#8], .ok r1⟩,
          ⟨[0x80#8 ||| (BitVec.ofNat 8 cfg &&& 0x7F#8), s.cfg.dummyTx], .ok [b0, b]⟩,
          ⟨[BitVec.ofNat 8 cfg &&& 0x7F#8, (b &&& 0xF0#8) ||| BitVec.ofNat 8 v], .ok r3⟩] ∧
        t.answers = rest ∧ t.fmt = s.fmt)) ∧
    (∀ (cfg : Nat) (b0 b : Byte) (rest : List Answer), cfg < 256 →
      s.answers = .ok r1 :: .ok [b0, b] :: rest →
      ∃ t, runPseudo (.getfs cfg) s = some (.next t) ∧ t.seq = .idle ∧ t.pc = s.pc + 2 ∧
        t.responses = s.responses ++ [⟨.ok, .none⟩, ⟨.ok, .byte b⟩] ∧
        t.trace = s.trace ++ [⟨[s.cfg.bankSelAddr.setWidth 8, 0x00#8], .ok r1⟩,
          ⟨[0x80#8 ||| (BitVec.ofNat 8 cfg &&& 0x7F#8), s.cfg.dummyTx], .ok [b0, b]⟩] ∧
        t.answers = rest ∧ t.fmt = s.fmt) ∧
    (∀ (base : Nat) (b0 : Byte) (data : Bytes) (rest : List Answer), base < 256 →
      s.answers = .ok r1 :: .ok (b0 :: data) :: rest → data.length = 6 →
      ∃ t, runPseudo (.rdxyz base) s = some (.next t) ∧ t.seq = .idle ∧ t.pc = s.pc + 2 ∧
        t.responses = s.responses ++ [⟨.ok, .none⟩, ⟨.ok, .bytes data⟩] ∧
        t.trace = s.trace ++ [⟨[s.cfg.bankSelAddr.setWidth 8, 0x00#8], .ok r1⟩,
          ⟨(0x80#8 ||| (BitVec.ofNat 8 base &&& 0x7F#8)) :: List.replicate 6 s.cfg.dummyTx,
            .ok (b0 :: data)⟩] ∧
        t.answers = rest ∧ t.fmt = s.fmt)

/-! ## Register-access requests -/

/-- 40 R91: SELB. A bank above 4 is refused with no transaction; any other is written to the bank-select
register, and the response says whether that transaction was Ok. -/
def Obligations.SelbSelectsTheBank : Prop :=
  (∀ w : ReqWord, fieldOP w = 0x1 → decodeRequest w = .selb (fieldA w)) ∧
  ∀ (bank : Byte) (s : State), s.seq = .idle →
    (4#8 < bank → ∃ s1 t, execPath (.selb bank) s [s1, t] ∧
      [s1, t].map (·.seq) = [.step 1, .respond] ∧ s1.cs = s.cs ∧ t.cs = s.cs ∧
      t.resp = some ⟨.invalidArgument, .none⟩ ∧ t.trace = s.trace ∧ t.answers = s.answers ∧
      t.fmt = s.fmt ∧ t.rbyte = s.rbyte ∧ keepsSession s t) ∧
    (∀ o rest, bank ≤ 4#8 → s.answers = o :: rest → answerFits o 2 →
      ∃ s1 s2 s3 t, execPath (.selb bank) s [s1, s2, s3, t] ∧
        [s1, s2, s3, t].map (·.seq) = [.step 1, .step 2, .xfer 2, .respond] ∧
        s3.cs = .low ∧ t.cs = .high ∧ s3.tx = [s.cfg.bankSelAddr.setWidth 8, bank] ∧
        t.resp = some ⟨outcomeStatus o, .none⟩ ∧
        t.trace = s.trace ++ [⟨[s.cfg.bankSelAddr.setWidth 8, bank], o⟩] ∧ t.answers = rest ∧
        t.fmt = s.fmt ∧ t.rbyte = s.rbyte ∧ keepsSession s t)

/-- 40 R95: RDR. The byte after the don't-care byte is returned; a failed transaction returns none. -/
def Obligations.RdrReadsOneByte : Prop :=
  (∀ w : ReqWord, fieldOP w = 0x2 → decodeRequest w = .rdr (fieldA w)) ∧
  ∀ (addr : Byte) (s : State) (o : Answer) (rest : List Answer), s.seq = .idle →
    s.answers = o :: rest → answerFits o 2 →
    ∃ s1 s2 t, execPath (.rdr addr) s [s1, s2, t] ∧
      [s1, s2, t].map (·.seq) = [.step 1, .xfer 1, .respond] ∧ s2.cs = .low ∧ t.cs = .high ∧
      s2.tx = [0x80#8 ||| (addr &&& 0x7F#8), s.cfg.dummyTx] ∧
      ((∃ b0 b, o = .ok [b0, b] ∧ t.resp = some ⟨.ok, .byte b⟩) ∨
        (o = .fail ∧ t.resp = some ⟨.commsFailure, .none⟩)) ∧
      t.trace = s.trace ++ [⟨[0x80#8 ||| (addr &&& 0x7F#8), s.cfg.dummyTx], o⟩] ∧
      t.answers = rest ∧ t.fmt = s.fmt ∧ t.rbyte = s.rbyte ∧ keepsSession s t

/-- 40 R98: WRR. The byte is written; the received bytes are not inspected. -/
def Obligations.WrrWritesOneByte : Prop :=
  (∀ w : ReqWord, fieldOP w = 0x3 → decodeRequest w = .wrr (fieldA w) (fieldB w)) ∧
  ∀ (addr data : Byte) (s : State) (o : Answer) (rest : List Answer), s.seq = .idle →
    s.answers = o :: rest → answerFits o 2 →
    ∃ s1 s2 t, execPath (.wrr addr data) s [s1, s2, t] ∧
      [s1, s2, t].map (·.seq) = [.step 1, .xfer 1, .respond] ∧ s2.cs = .low ∧ t.cs = .high ∧
      s2.tx = [addr &&& 0x7F#8, data] ∧ t.resp = some ⟨outcomeStatus o, .none⟩ ∧
      t.trace = s.trace ++ [⟨[addr &&& 0x7F#8, data], o⟩] ∧ t.answers = rest ∧
      t.fmt = s.fmt ∧ t.rbyte = s.rbyte ∧ keepsSession s t

/-- 40 R101, R102, R104: RMW, its states, its two chip-select brackets and the byte it writes, whatever
that byte is; a failed read ends it with no write; the response taken, `SEQ` is `IDLE` again. -/
def Obligations.RmwReadsThenWrites : Prop :=
  (∀ w : ReqWord, fieldOP w = 0x4 →
    decodeRequest w = .rmw (fieldC w) (fieldA w) (fieldB w) (fieldSH w)) ∧
  ∀ (mask addr value : Byte) (shift : BitVec 3) (s : State), s.seq = .idle →
    (∀ rest, s.answers = .fail :: rest →
      ∃ s1 s2 t u, execPath (.rmw mask addr value shift) s [s1, s2, t] ∧
        [s1, s2, t].map (·.seq) = [.step 1, .xfer 1, .respond] ∧
        s1.cs = s.cs ∧ s2.cs = .low ∧ t.cs = .high ∧ step t = .next u ∧ u.seq = .idle ∧
        t.resp = some ⟨.commsFailure, .none⟩ ∧
        t.trace = s.trace ++ [⟨[0x80#8 ||| (addr &&& 0x7F#8), s.cfg.dummyTx], .fail⟩] ∧
        t.answers = rest ∧ t.fmt = s.fmt ∧ t.rbyte = s.rbyte ∧ keepsSession s t) ∧
    (∀ b0 b o rest, s.answers = .ok [b0, b] :: o :: rest → answerFits o 2 →
      ∃ s1 s2 s3 s4 s5 t u, execPath (.rmw mask addr value shift) s [s1, s2, s3, s4, s5, t] ∧
        [s1, s2, s3, s4, s5, t].map (·.seq) =
          [.step 1, .xfer 1, .step 2, .step 3, .xfer 3, .respond] ∧
        s1.cs = s.cs ∧ s2.cs = .low ∧ s3.cs = .high ∧ s4.cs = .high ∧ s5.cs = .low ∧
        t.cs = .high ∧ step t = .next u ∧ u.seq = .idle ∧
        s3.rbyte = b ∧ s4.rbyte = b ∧ t.resp = some ⟨outcomeStatus o, .none⟩ ∧
        t.trace = s.trace ++
          [⟨[0x80#8 ||| (addr &&& 0x7F#8), s.cfg.dummyTx], .ok [b0, b]⟩,
            ⟨[addr &&& 0x7F#8,
              (b &&& ~~~(mask <<< shift.toNat)) ||| (value <<< shift.toNat)], o⟩] ∧
        t.answers = rest ∧ t.fmt = s.fmt ∧ keepsSession s t)

/-- 40 R103: the preservation law, for the byte n that RMW's step 3 sends to its register. -/
def Obligations.RmwPreservationLaw : Prop :=
  ∀ (mask addr value : Byte) (shift : BitVec 3) (s : State), s.seq = .step 3 →
    s.req = some (.rmw mask addr value shift) →
    ∃ t n, exec (.rmw mask addr value shift) s = .next t ∧ t.seq = .xfer 3 ∧ t.cs = .low ∧
      t.tx = [addr &&& 0x7F#8, n] ∧
      ((value <<< shift.toNat) &&& ~~~(mask <<< shift.toNat) = 0 →
        n &&& ~~~(mask <<< shift.toNat) = s.rbyte &&& ~~~(mask <<< shift.toNat) ∧
        n &&& (mask <<< shift.toNat) = (value <<< shift.toNat) &&& (mask <<< shift.toNat)) ∧
      n &&& ((value <<< shift.toNat) &&& ~~~(mask <<< shift.toNat)) =
        (value <<< shift.toNat) &&& ~~~(mask <<< shift.toNat)

/-- 40 R110: BRD. A count below 2 is refused with no transaction; any other count is one transaction of
count + 1 bytes, whose bytes 1 to count are returned. -/
def Obligations.BrdReadsCountBytes : Prop :=
  (∀ w : ReqWord, fieldOP w = 0x5 → decodeRequest w = .brd (fieldA w) (fieldB w)) ∧
  ∀ (addr count : Byte) (s : State), s.seq = .idle →
    (count < 2#8 → ∃ s1 t, execPath (.brd addr count) s [s1, t] ∧
      [s1, t].map (·.seq) = [.step 1, .respond] ∧ s1.cs = s.cs ∧ t.cs = s.cs ∧
      t.resp = some ⟨.invalidArgument, .none⟩ ∧ t.trace = s.trace ∧ t.answers = s.answers ∧
      t.fmt = s.fmt ∧ t.rbyte = s.rbyte ∧ keepsSession s t) ∧
    (∀ o rest, 2#8 ≤ count → s.answers = o :: rest → answerFits o (count.toNat + 1) →
      ∃ s1 s2 s3 t, execPath (.brd addr count) s [s1, s2, s3, t] ∧
        [s1, s2, s3, t].map (·.seq) = [.step 1, .step 2, .xfer 2, .respond] ∧
        s3.cs = .low ∧ t.cs = .high ∧
        s3.tx = (0x80#8 ||| (addr &&& 0x7F#8)) :: List.replicate count.toNat s.cfg.dummyTx ∧
        ((∃ b0 data, o = .ok (b0 :: data) ∧ data.length = count.toNat ∧
          t.resp = some ⟨.ok, .bytes data⟩) ∨
          (o = .fail ∧ t.resp = some ⟨.commsFailure, .none⟩)) ∧
        t.trace = s.trace ++
          [⟨(0x80#8 ||| (addr &&& 0x7F#8)) :: List.replicate count.toNat s.cfg.dummyTx, o⟩] ∧
        t.answers = rest ∧ t.fmt = s.fmt ∧ t.rbyte = s.rbyte ∧ keepsSession s t)

/-- 30_encoding R74: a word with a reserved `OP` decodes to a reserved request, which makes no
transaction, leaves `FMT` and answers `InvalidArgument` with no data. That it passes through `STEP(1)` is
the model's reading of 10_state R28 (log 13). -/
def Obligations.ReservedOpcodesAreRefused : Prop :=
  ∀ (w : ReqWord) (s : State), (fieldOP w = 0 ∨ 8#4 ≤ fieldOP w) → s.seq = .idle →
    ((fieldOP w = 0 → decodeRequest w = .reserved0) ∧
      (8#4 ≤ fieldOP w → decodeRequest w = .reserved8F (fieldOP w))) ∧
    ∃ s1 t, execPath (decodeRequest w) s [s1, t] ∧
      [s1, t].map (·.seq) = [.step 1, .respond] ∧ s1.cs = s.cs ∧ t.cs = s.cs ∧
      t.resp = some ⟨.invalidArgument, .none⟩ ∧ t.trace = s.trace ∧ t.answers = s.answers ∧
      t.fmt = s.fmt ∧ t.rbyte = s.rbyte ∧ keepsSession s t

/-! ## FIFO decoder requests -/

/-- 45 R132: CFGF refuses every format but 1 to 4, with no transaction and `FMT` unchanged. -/
def Obligations.CfgfRefusesOtherFormats : Prop :=
  (∀ w : ReqWord, fieldOP w = 0x6 → decodeRequest w = .cfgf (fieldA w)) ∧
  ∀ (format : Byte) (s : State), s.seq = .idle →
    (¬(1 ≤ format.toNat ∧ format.toNat ≤ 4) → ∃ s1 t, execPath (.cfgf format) s [s1, t] ∧
      [s1, t].map (·.seq) = [.step 1, .respond] ∧ s1.cs = s.cs ∧ t.cs = s.cs ∧
      t.resp = some ⟨.invalidArgument, .none⟩ ∧ t.trace = s.trace ∧ t.answers = s.answers ∧
      t.fmt = s.fmt ∧ t.rbyte = s.rbyte ∧ keepsSession s t) ∧
    (1 ≤ format.toNat ∧ format.toNat ≤ 4 → ∃ s1 s2, execPath (.cfgf format) s [s1, s2] ∧
      [s1, s2].map (·.seq) = [.step 1, .step 2])

/-- 45 R133, R134: CFGF whose four transactions are answered Ok makes them in this order and then writes
`FMT`. -/
def Obligations.CfgfConfiguresTheFifo : Prop :=
  ∀ (format pattern : Byte) (s : State) (r1 r3 r4 : Bytes) (b0 b : Byte) (rest : List Answer),
    s.seq = .idle →
    (format = 1 ∧ pattern = s.cfg.fifoPattern1 ∨ format = 2 ∧ pattern = s.cfg.fifoPattern2 ∨
      format = 3 ∧ pattern = s.cfg.fifoPattern3 ∨ format = 4 ∧ pattern = s.cfg.fifoPattern4) →
    s.answers = .ok r1 :: .ok [b0, b] :: .ok r3 :: .ok r4 :: rest →
    r1.length = 2 → r3.length = 2 → r4.length = 2 →
    ∃ s1 s2 s3 s4 s5 s6 s7 s8 s9 s10 s11 t,
      execPath (.cfgf format) s [s1, s2, s3, s4, s5, s6, s7, s8, s9, s10, s11, t] ∧
      [s1, s2, s3, s4, s5, s6, s7, s8, s9, s10, s11, t].map (·.seq) =
        [.step 1, .step 2, .xfer 2, .step 3, .xfer 3, .step 4, .step 5, .xfer 5, .step 6,
          .xfer 6, .step 7, .respond] ∧
      [s3, s4, s5, s6, s7, s8, s9, s10, s11, t].map (·.cs) =
        [.low, .high, .low, .high, .high, .low, .high, .low, .high, .high] ∧
      s11.fmt = s.fmt ∧ t.fmt = format.setWidth 3 ∧ t.fmt.toNat = format.toNat ∧
      t.resp = some ⟨.ok, .none⟩ ∧
      t.trace = s.trace ++
        [⟨[s.cfg.bankSelAddr.setWidth 8, 0x00#8], .ok r1⟩,
          ⟨[0x80#8 ||| s.cfg.fifoModeAddr.setWidth 8, s.cfg.dummyTx], .ok [b0, b]⟩,
          ⟨[s.cfg.fifoModeAddr.setWidth 8,
            (b &&& ~~~(s.cfg.fifoModeMask <<< s.cfg.fifoModeShift.toNat)) |||
              (s.cfg.fifoModeStream <<< s.cfg.fifoModeShift.toNat)], .ok r3⟩,
          ⟨[s.cfg.fifoFmtAddr.setWidth 8, pattern], .ok r4⟩] ∧
      t.answers = rest ∧ keepsSession s t

/-- 45 R135: a CFGF transaction that fails ends the request with `CommsFailure`; `FMT` keeps its value
and the transactions already made stand. -/
def Obligations.CfgfFailureKeepsFmt : Prop :=
  ∀ (format : Byte) (s : State) (k : Nat) (rest : List Answer), s.req = some (.cfgf format) →
    s.seq = .xfer k → s.answers = .fail :: rest →
    ∃ t, exec (.cfgf format) s = .next t ∧ t.seq = .respond ∧
      t.resp = some ⟨.commsFailure, .none⟩ ∧ t.cs = .high ∧ t.fmt = s.fmt ∧
      t.trace = s.trace ++ [⟨s.tx, .fail⟩] ∧ t.rbyte = s.rbyte ∧ keepsSession s t

/-- 45 R131: the packet lengths, layouts and required fields of the four formats; every byte after the
header belongs to exactly one field of its format, and the required fields are the delivered ones. -/
def Obligations.PacketLayout : Prop :=
  (fifoLen 1 = some 8 ∧ fifoLen 2 = some 8 ∧ fifoLen 3 = some 16 ∧ fifoLen 4 = some 20) ∧
  (requiredFields 1 = some 0x05 ∧ requiredFields 2 = some 0x06 ∧ requiredFields 3 = some 0x0F ∧
    requiredFields 4 = some 0x37) ∧
  (∀ h p1 p2 p3 p4 p5 p6 p7 : Byte,
    packetRecord 1 [h, p1, p2, p3, p4, p5, p6, p7] =
      ⟨some [p1, p2, p3, p4, p5, p6], none, some [p7], none, none, none⟩ ∧
    packetRecord 2 [h, p1, p2, p3, p4, p5, p6, p7] =
      ⟨none, some [p1, p2, p3, p4, p5, p6], some [p7], none, none, none⟩) ∧
  (∀ h p1 p2 p3 p4 p5 p6 p7 p8 p9 p10 p11 p12 p13 p14 p15 : Byte,
    packetRecord 3 [h, p1, p2, p3, p4, p5, p6, p7, p8, p9, p10, p11, p12, p13, p14, p15] =
      ⟨some [p1, p2, p3, p4, p5, p6], some [p7, p8, p9, p10, p11, p12], some [p13],
        some [p14, p15], none, none⟩) ∧
  (∀ h p1 p2 p3 p4 p5 p6 p7 p8 p9 p10 p11 p12 p13 p14 p15 p16 p17 p18 p19 : Byte,
    packetRecord 4 [h, p1, p2, p3, p4, p5, p6, p7, p8, p9, p10, p11, p12, p13, p14, p15, p16, p17,
      p18, p19] =
      ⟨some [p1, p2, p3, p4, p5, p6], some [p7, p8, p9, p10, p11, p12], some [p13, p14],
        none, some [p15, p16], some [p17, p18, p19]⟩) ∧
  (∀ (f : Format) (len : Nat) (req : Presence), fifoLen f = some len → requiredFields f = some req →
    (∀ j, 1 ≤ j → j < len → ∃ x lo hi, fieldRange f x = some (lo, hi) ∧ lo ≤ j ∧ j ≤ hi ∧
      ∀ y lo' hi', fieldRange f y = some (lo', hi') → lo' ≤ j → j ≤ hi' → y = x) ∧
    (∀ x, req.getLsbD (fieldBit x) = (fieldRange f x).isSome))

/-- 45 R143, R144 with the bank select of R140: RDF with a format and every required field supplied makes
its two transactions and returns the fields of the packet. -/
def Obligations.RdfReturnsThePacketsFields : Prop :=
  (∀ w : ReqWord, fieldOP w = 0x7 → decodeRequest w = .rdf ((fieldC w).extractLsb' 0 6)) ∧
  ∀ (fields req : Presence) (len : Nat) (s : State) (r1 P : Bytes) (x : Byte)
    (rest : List Answer), s.seq = .idle → fifoLen s.fmt = some len →
    requiredFields s.fmt = some req → fields &&& req = req →
    s.answers = .ok r1 :: .ok (x :: P) :: rest → r1.length = 2 → P.length = len →
    ∃ s1 s2 s3 s4 s5 s6 s7 t,
      execPath (.rdf fields) s [s1, s2, s3, s4, s5, s6, s7, t] ∧
      [s1, s2, s3, s4, s5, s6, s7, t].map (·.seq) =
        [.step 1, .xfer 1, .step 2, .step 3, .step 4, .xfer 4, .step 5, .respond] ∧
      [s2, s3, s4, s5, s6, s7, t].map (·.cs) =
        [.low, .high, .high, .high, .low, .high, .high] ∧
      t.resp = some ⟨.ok, .fields (packetRecord s.fmt P)⟩ ∧
      t.trace = s.trace ++
        [⟨[s.cfg.bankSelAddr.setWidth 8, 0x00#8], .ok r1⟩,
          ⟨(0x80#8 ||| s.cfg.fifoDataAddr.setWidth 8) :: List.replicate len s.cfg.dummyTx,
            .ok (x :: P)⟩] ∧
      t.answers = rest ∧ t.fmt = s.fmt ∧ t.rbyte = s.rbyte ∧ keepsSession s t

/-- 45 R142: after its bank select RDF answers `NotConfigured` while `FMT` is 0, and `InvalidArgument`
when a required field is not supplied; neither makes the burst. -/
def Obligations.RdfChecksBeforeTheBurst : Prop :=
  ∀ (fields : Presence) (s : State) (r1 : Bytes) (rest : List Answer), s.seq = .idle →
    s.answers = .ok r1 :: rest → r1.length = 2 →
    (s.fmt = 0 → ∃ s1 s2 s3 t, execPath (.rdf fields) s [s1, s2, s3, t] ∧
      [s1, s2, s3, t].map (·.seq) = [.step 1, .xfer 1, .step 2, .respond] ∧
      t.resp = some ⟨.notConfigured, .none⟩ ∧ t.cs = .high ∧
      t.trace = s.trace ++ [⟨[s.cfg.bankSelAddr.setWidth 8, 0x00#8], .ok r1⟩] ∧
      t.answers = rest ∧ t.fmt = s.fmt ∧ t.rbyte = s.rbyte ∧ keepsSession s t) ∧
    (∀ req, requiredFields s.fmt = some req → fields &&& req ≠ req →
      ∃ s1 s2 s3 s4 t, execPath (.rdf fields) s [s1, s2, s3, s4, t] ∧
        [s1, s2, s3, s4, t].map (·.seq) = [.step 1, .xfer 1, .step 2, .step 3, .respond] ∧
        t.resp = some ⟨.invalidArgument, .none⟩ ∧ t.cs = .high ∧
        t.trace = s.trace ++ [⟨[s.cfg.bankSelAddr.setWidth 8, 0x00#8], .ok r1⟩] ∧
        t.answers = rest ∧ t.fmt = s.fmt ∧ t.rbyte = s.rbyte ∧ keepsSession s t)

/-- 45 R147: a failed bank select of RDF wins over every later check, whatever `FMT` and the presence
mask; a failed burst answers `CommsFailure` with no field. -/
def Obligations.RdfTransportFailures : Prop :=
  ∀ (fields : Presence) (s : State), s.seq = .idle →
    (∀ rest, s.answers = .fail :: rest → ∃ s1 s2 t, execPath (.rdf fields) s [s1, s2, t] ∧
      [s1, s2, t].map (·.seq) = [.step 1, .xfer 1, .respond] ∧
      t.resp = some ⟨.commsFailure, .none⟩ ∧ t.cs = .high ∧
      t.trace = s.trace ++ [⟨[s.cfg.bankSelAddr.setWidth 8, 0x00#8], .fail⟩] ∧
      t.answers = rest ∧ t.fmt = s.fmt ∧ t.rbyte = s.rbyte ∧ keepsSession s t) ∧
    (∀ r1 rest req len, s.answers = .ok r1 :: .fail :: rest → r1.length = 2 →
      fifoLen s.fmt = some len → requiredFields s.fmt = some req → fields &&& req = req →
      ∃ s1 s2 s3 s4 s5 s6 t, execPath (.rdf fields) s [s1, s2, s3, s4, s5, s6, t] ∧
        [s1, s2, s3, s4, s5, s6, t].map (·.seq) =
          [.step 1, .xfer 1, .step 2, .step 3, .step 4, .xfer 4, .respond] ∧
        t.resp = some ⟨.commsFailure, .none⟩ ∧ t.cs = .high ∧
        t.trace = s.trace ++ [⟨[s.cfg.bankSelAddr.setWidth 8, 0x00#8], .ok r1⟩,
          ⟨(0x80#8 ||| s.cfg.fifoDataAddr.setWidth 8) :: List.replicate len s.cfg.dummyTx,
            .fail⟩] ∧
        t.answers = rest ∧ t.fmt = s.fmt ∧ t.rbyte = s.rbyte ∧ keepsSession s t)

/-! ## Frames -/

/-- A read frame on the transport port runs in every legal state: it is exchanged in one chip-select
bracket, and its request goes on to its next step or ends. That a frame runs as an instruction is the
model's choice (log 14). -/
def Obligations.ReadFrameRuns : Prop :=
  ∀ (a : Addr) (s : State) (k : Nat) (l : Bytes) (o : Answer) (rest : List Answer), Inv s →
    s.seq = .xfer k → s.tx = (0x80#8 ||| a.setWidth 8) :: l → s.answers = o :: rest →
    answerFits o s.tx.length →
    ∃ t, exec (.spiRead a) s = .next t ∧ t.cs = .high ∧
      t.trace = s.trace ++ [⟨s.tx, o⟩] ∧ t.answers = rest ∧ t.fmt = s.fmt ∧
      keepsSession s t ∧
      (o = .fail → t.seq = .respond ∧ t.resp = some ⟨.commsFailure, .none⟩) ∧
      (∀ rx, o = .ok rx → t.seq = .step (k + 1) ∧ t.resp = none ∨
        t.seq = .respond ∧ ((∃ b, rx.drop 1 = [b] ∧ t.resp = some ⟨.ok, .byte b⟩) ∨
          t.resp = some ⟨.ok, .bytes (rx.drop 1)⟩))

/-- A write frame on the transport port runs in every legal state, and its received bytes are not
inspected: the request goes on to its next step or ends with `OK` and no data. That a frame runs as an
instruction is the model's choice (log 14). -/
def Obligations.WriteFrameRuns : Prop :=
  ∀ (a : Addr) (s : State) (k : Nat) (l : Bytes) (o : Answer) (rest : List Answer), Inv s →
    s.seq = .xfer k → s.tx = a.setWidth 8 :: l → s.answers = o :: rest →
    answerFits o s.tx.length →
    ∃ t, exec (.spiWrite a) s = .next t ∧ t.cs = .high ∧ s.tx.length = 2 ∧
      t.trace = s.trace ++ [⟨s.tx, o⟩] ∧ t.answers = rest ∧ t.fmt = s.fmt ∧
      t.rbyte = s.rbyte ∧ keepsSession s t ∧
      (o = .fail → t.seq = .respond ∧ t.resp = some ⟨.commsFailure, .none⟩) ∧
      (∀ rx, o = .ok rx → t.seq = .step (k + 1) ∧ t.resp = none ∨
        t.seq = .respond ∧ t.resp = some ⟨.ok, .none⟩)

/-- The frame in flight and the request that presented it make the same transition. That a frame runs as an
instruction is the model's choice (log 14). -/
def Obligations.FrameAndRequestAgree : Prop :=
  ∀ (i : Instr) (s : State) (k : Nat) (a : Addr), i.isRequest = true → s.seq = .xfer k →
    s.req = some i →
    (s.tx.head? = some (0x80#8 ||| a.setWidth 8) → exec (.spiRead a) s = exec i s) ∧
    (s.tx.head? = some (a.setWidth 8) → exec (.spiWrite a) s = exec i s)

/-! ## Statuses and the device's bank -/

/-- 60 R160: the status codes; 5 to 7 are the code of no status. -/
def Obligations.StatusCodes : Prop :=
  statusCode .ok = 0 ∧ statusCode .invalidArgument = 1 ∧ statusCode .commsFailure = 2 ∧
    statusCode .notConfigured = 3 ∧ statusCode .notImplemented = 4 ∧
    ∀ st, statusCode st ≤ 4#3

/-- What the bus tells of the device's bank (20_memory R52, 70 R188; the model's reading, log 20), whichever
writes soft-reset the device: after SELB; after the bank-select transaction of any request; unchanged by a
transaction that is neither a bank-select write nor a soft reset; unknown after a soft reset. -/
def Obligations.BusTellsTheDeviceBank : Prop :=
  ∀ (resets : SoftReset) (s : State),
    (∀ (bank : Byte) (o : Answer) (rest : List Answer), s.seq = .idle → bank ≤ 4#8 →
      s.answers = o :: rest → answerFits o 2 →
      ∃ s1 s2 s3 t, execPath (.selb bank) s [s1, s2, s3, t] ∧
        deviceBank s.cfg resets t.trace = match o with
          | .ok _ => .known bank
          | .fail => .unknown) ∧
    (∀ (i : Instr) (t : State) (k : Nat) (d : Byte) (o : Answer) (rest : List Answer),
      exec i s = .next t → s.seq = .xfer k → s.answers = o :: rest →
      s.tx = [s.cfg.bankSelAddr.setWidth 8, d] →
      deviceBank t.cfg resets t.trace = match o with
        | .ok _ => if d ≤ 4#8 then .known d else .unknown
        | .fail => .unknown) ∧
    (∀ (i : Instr) (t : State), exec i s = .next t →
      s.tx.head? ≠ some (s.cfg.bankSelAddr.setWidth 8) →
      (∀ (bank : Byte) (a : Addr) (d : Byte), s.tx = [a.setWidth 8, d] →
        resets bank a d = false) →
      deviceBank t.cfg resets t.trace = deviceBank s.cfg resets s.trace) ∧
    (∀ (i : Instr) (t : State) (k : Nat) (bank : Byte) (a : Addr) (d : Byte) (o : Answer)
      (rest : List Answer), exec i s = .next t → s.seq = .xfer k → s.answers = o :: rest →
      s.tx = [a.setWidth 8, d] → a ≠ s.cfg.bankSelAddr →
      deviceBank s.cfg resets s.trace = .known bank → resets bank a d = true →
      deviceBank t.cfg resets t.trace = .unknown)
end

