-- ==== Sys2Proof/Laws/Decode.lean ====
section
/-! SUPPORT. The fields of an assembled request word, what each opcode decodes to, and the two
directions of the command byte. -/

namespace Sys2Proof

/-! ## Request words (30_encoding R70) -/

section
variable (op : BitVec 4) (sh : BitVec 3) (a b c : Byte)

@[simp] theorem fieldOP_requestWord : fieldOP (requestWord op sh a b c) = op := by
  ext i hi; interval_cases i <;> simp [fieldOP, requestWord]

@[simp] theorem fieldSH_requestWord : fieldSH (requestWord op sh a b c) = sh := by
  ext i hi; interval_cases i <;> simp [fieldSH, requestWord]

@[simp] theorem fieldRSV_requestWord : fieldRSV (requestWord op sh a b c) = 0 := by
  ext i hi
  interval_cases i
  simp [fieldRSV, requestWord]

@[simp] theorem fieldA_requestWord : fieldA (requestWord op sh a b c) = a := by
  ext i hi; interval_cases i <;> simp [fieldA, requestWord]

@[simp] theorem fieldB_requestWord : fieldB (requestWord op sh a b c) = b := by
  ext i hi; interval_cases i <;> simp [fieldB, requestWord]

@[simp] theorem fieldC_requestWord : fieldC (requestWord op sh a b c) = c := by
  ext i hi; interval_cases i <;> simp [fieldC, requestWord]

end

/-! ## Opcodes (R71, R74) -/

theorem decodeRequest_of_reserved (w : ReqWord) (h : 8#4 ≤ fieldOP w) :
    decodeRequest w = .reserved8F (fieldOP w) := by
  have h8 : 8 ≤ (fieldOP w).toNat := by simpa [BitVec.le_def] using h
  unfold decodeRequest
  split <;> first | rfl | omega

theorem decodeRequest_isRequest (w : ReqWord) : (decodeRequest w).isRequest = true := by
  unfold decodeRequest
  split <;> rfl

theorem decodeRequest_wellFormed (w : ReqWord) : (decodeRequest w).wellFormed = true := by
  by_cases h : 8#4 ≤ fieldOP w
  · simp [decodeRequest_of_reserved w h, Instr.wellFormed, h]
  · have : (fieldOP w).toNat < 8 := by simpa [BitVec.le_def] using h
    unfold decodeRequest
    split <;> first | rfl | (simp only [imp_false] at *; omega)

/-! ## Command bytes (R77) -/

theorem decodeCommand_commandByte (r : Bool) (a : Addr) :
    decodeCommand (commandByte r a) = if r then .spiRead a else .spiWrite a := by
  revert r a; decide

theorem encode_decodeCommand (c : Byte) : encode (decodeCommand c) = .command c := by
  revert c; decide

/-- A command byte begins a read frame or a write frame, and is that frame's command byte. -/
theorem decodeCommand_cases (c : Byte) :
    (∃ a, decodeCommand c = .spiRead a ∧ c = commandByte true a) ∨
      (∃ a, decodeCommand c = .spiWrite a ∧ c = commandByte false a) := by
  have h := encode_decodeCommand c
  unfold decodeCommand at h ⊢
  split <;> rename_i hb <;> simp only [hb, if_true, if_false, encode, Encoded.command.injEq,
    Bool.false_eq_true] at h
  · exact .inl ⟨_, rfl, h.symm⟩
  · exact .inr ⟨_, rfl, h.symm⟩

end Sys2Proof
end

