-- ==== Sys2Proof/Laws/State.lean ====
section
/-! SUPPORT. One lemma for each field of State under each update of Machine/Ops.lean, so that no proof unfolds
a record update. -/

namespace Sys2Proof.Machine

variable (s : State)

@[simp] theorem accept_fmt (i : Instr) : (accept i s).fmt = s.fmt := rfl
@[simp] theorem accept_seq (i : Instr) : (accept i s).seq = .step 1 := rfl
@[simp] theorem accept_cs (i : Instr) : (accept i s).cs = s.cs := rfl
@[simp] theorem accept_txbuf (i : Instr) : (accept i s).txbuf = s.txbuf := rfl
@[simp] theorem accept_txlen (i : Instr) : (accept i s).txlen = s.txlen := rfl
@[simp] theorem accept_rxbuf (i : Instr) : (accept i s).rxbuf = s.rxbuf := rfl
@[simp] theorem accept_rxlen (i : Instr) : (accept i s).rxlen = s.rxlen := rfl
@[simp] theorem accept_rbyte (i : Instr) : (accept i s).rbyte = s.rbyte := rfl
@[simp] theorem accept_resp (i : Instr) : (accept i s).resp = s.resp := rfl
@[simp] theorem accept_req (i : Instr) : (accept i s).req = some i := rfl
@[simp] theorem accept_cfg (i : Instr) : (accept i s).cfg = s.cfg := rfl
@[simp] theorem accept_pc (i : Instr) : (accept i s).pc = s.pc := rfl
@[simp] theorem accept_program (i : Instr) : (accept i s).program = s.program := rfl
@[simp] theorem accept_answers (i : Instr) : (accept i s).answers = s.answers := rfl
@[simp] theorem accept_trace (i : Instr) : (accept i s).trace = s.trace := rfl
@[simp] theorem accept_responses (i : Instr) : (accept i s).responses = s.responses := rfl
@[simp] theorem accept_draws (i : Instr) : (accept i s).draws = s.draws := rfl

@[simp] theorem toStep_fmt (k : Nat) : (toStep k s).fmt = s.fmt := rfl
@[simp] theorem toStep_seq (k : Nat) : (toStep k s).seq = .step k := rfl
@[simp] theorem toStep_cs (k : Nat) : (toStep k s).cs = s.cs := rfl
@[simp] theorem toStep_txbuf (k : Nat) : (toStep k s).txbuf = s.txbuf := rfl
@[simp] theorem toStep_txlen (k : Nat) : (toStep k s).txlen = s.txlen := rfl
@[simp] theorem toStep_rxbuf (k : Nat) : (toStep k s).rxbuf = s.rxbuf := rfl
@[simp] theorem toStep_rxlen (k : Nat) : (toStep k s).rxlen = s.rxlen := rfl
@[simp] theorem toStep_rbyte (k : Nat) : (toStep k s).rbyte = s.rbyte := rfl
@[simp] theorem toStep_resp (k : Nat) : (toStep k s).resp = s.resp := rfl
@[simp] theorem toStep_req (k : Nat) : (toStep k s).req = s.req := rfl
@[simp] theorem toStep_cfg (k : Nat) : (toStep k s).cfg = s.cfg := rfl
@[simp] theorem toStep_pc (k : Nat) : (toStep k s).pc = s.pc := rfl
@[simp] theorem toStep_program (k : Nat) : (toStep k s).program = s.program := rfl
@[simp] theorem toStep_answers (k : Nat) : (toStep k s).answers = s.answers := rfl
@[simp] theorem toStep_trace (k : Nat) : (toStep k s).trace = s.trace := rfl
@[simp] theorem toStep_responses (k : Nat) : (toStep k s).responses = s.responses := rfl
@[simp] theorem toStep_draws (k : Nat) : (toStep k s).draws = s.draws := rfl

@[simp] theorem present_fmt (k : Nat) (tx : Bytes) : (present k tx s).fmt = s.fmt := rfl
@[simp] theorem present_seq (k : Nat) (tx : Bytes) : (present k tx s).seq = .xfer k := rfl
@[simp] theorem present_cs (k : Nat) (tx : Bytes) : (present k tx s).cs = .low := rfl
@[simp] theorem present_txbuf (k : Nat) (tx : Bytes) : (present k tx s).txbuf = fill tx (Config.freeTx s.draws) := rfl
@[simp] theorem present_txlen (k : Nat) (tx : Bytes) : (present k tx s).txlen = tx.length := rfl
@[simp] theorem present_rxbuf (k : Nat) (tx : Bytes) : (present k tx s).rxbuf = Config.freeRx s.draws := rfl
@[simp] theorem present_rxlen (k : Nat) (tx : Bytes) : (present k tx s).rxlen = 0 := rfl
@[simp] theorem present_rbyte (k : Nat) (tx : Bytes) : (present k tx s).rbyte = s.rbyte := rfl
@[simp] theorem present_resp (k : Nat) (tx : Bytes) : (present k tx s).resp = s.resp := rfl
@[simp] theorem present_req (k : Nat) (tx : Bytes) : (present k tx s).req = s.req := rfl
@[simp] theorem present_cfg (k : Nat) (tx : Bytes) : (present k tx s).cfg = s.cfg := rfl
@[simp] theorem present_pc (k : Nat) (tx : Bytes) : (present k tx s).pc = s.pc := rfl
@[simp] theorem present_program (k : Nat) (tx : Bytes) : (present k tx s).program = s.program := rfl
@[simp] theorem present_answers (k : Nat) (tx : Bytes) : (present k tx s).answers = s.answers := rfl
@[simp] theorem present_trace (k : Nat) (tx : Bytes) : (present k tx s).trace = s.trace := rfl
@[simp] theorem present_responses (k : Nat) (tx : Bytes) : (present k tx s).responses = s.responses := rfl
@[simp] theorem present_draws (k : Nat) (tx : Bytes) : (present k tx s).draws = s.draws + 1 := rfl

@[simp] theorem endXfer_fmt (o : Answer) : (endXfer o s).fmt = s.fmt := rfl
@[simp] theorem endXfer_seq (o : Answer) : (endXfer o s).seq = s.seq := rfl
@[simp] theorem endXfer_cs (o : Answer) : (endXfer o s).cs = .high := rfl
@[simp] theorem endXfer_txbuf (o : Answer) : (endXfer o s).txbuf = Config.freeTx s.draws := rfl
@[simp] theorem endXfer_txlen (o : Answer) : (endXfer o s).txlen = 0 := rfl
@[simp] theorem endXfer_rxbuf (o : Answer) : (endXfer o s).rxbuf = s.rxbuf := rfl
@[simp] theorem endXfer_rxlen (o : Answer) : (endXfer o s).rxlen = s.rxlen := rfl
@[simp] theorem endXfer_rbyte (o : Answer) : (endXfer o s).rbyte = s.rbyte := rfl
@[simp] theorem endXfer_resp (o : Answer) : (endXfer o s).resp = s.resp := rfl
@[simp] theorem endXfer_req (o : Answer) : (endXfer o s).req = s.req := rfl
@[simp] theorem endXfer_cfg (o : Answer) : (endXfer o s).cfg = s.cfg := rfl
@[simp] theorem endXfer_pc (o : Answer) : (endXfer o s).pc = s.pc := rfl
@[simp] theorem endXfer_program (o : Answer) : (endXfer o s).program = s.program := rfl
@[simp] theorem endXfer_answers (o : Answer) : (endXfer o s).answers = s.answers.drop 1 := rfl
@[simp] theorem endXfer_trace (o : Answer) : (endXfer o s).trace = s.trace ++ [⟨s.tx, o⟩] := rfl
@[simp] theorem endXfer_responses (o : Answer) : (endXfer o s).responses = s.responses := rfl
@[simp] theorem endXfer_draws (o : Answer) : (endXfer o s).draws = s.draws + 1 := rfl

@[simp] theorem receive_fmt (rx : Bytes) : (receive rx s).fmt = s.fmt := rfl
@[simp] theorem receive_seq (rx : Bytes) : (receive rx s).seq = s.seq := rfl
@[simp] theorem receive_cs (rx : Bytes) : (receive rx s).cs = s.cs := rfl
@[simp] theorem receive_txbuf (rx : Bytes) : (receive rx s).txbuf = s.txbuf := rfl
@[simp] theorem receive_txlen (rx : Bytes) : (receive rx s).txlen = s.txlen := rfl
@[simp] theorem receive_rxbuf (rx : Bytes) : (receive rx s).rxbuf = fill rx (Config.freeRx s.draws) := rfl
@[simp] theorem receive_rxlen (rx : Bytes) : (receive rx s).rxlen = rx.length := rfl
@[simp] theorem receive_rbyte (rx : Bytes) : (receive rx s).rbyte = s.rbyte := rfl
@[simp] theorem receive_resp (rx : Bytes) : (receive rx s).resp = s.resp := rfl
@[simp] theorem receive_req (rx : Bytes) : (receive rx s).req = s.req := rfl
@[simp] theorem receive_cfg (rx : Bytes) : (receive rx s).cfg = s.cfg := rfl
@[simp] theorem receive_pc (rx : Bytes) : (receive rx s).pc = s.pc := rfl
@[simp] theorem receive_program (rx : Bytes) : (receive rx s).program = s.program := rfl
@[simp] theorem receive_answers (rx : Bytes) : (receive rx s).answers = s.answers := rfl
@[simp] theorem receive_trace (rx : Bytes) : (receive rx s).trace = s.trace := rfl
@[simp] theorem receive_responses (rx : Bytes) : (receive rx s).responses = s.responses := rfl
@[simp] theorem receive_draws (rx : Bytes) : (receive rx s).draws = s.draws + 1 := rfl

@[simp] theorem latchByte_fmt (b : Byte) : (latchByte b s).fmt = s.fmt := rfl
@[simp] theorem latchByte_seq (b : Byte) : (latchByte b s).seq = s.seq := rfl
@[simp] theorem latchByte_cs (b : Byte) : (latchByte b s).cs = s.cs := rfl
@[simp] theorem latchByte_txbuf (b : Byte) : (latchByte b s).txbuf = s.txbuf := rfl
@[simp] theorem latchByte_txlen (b : Byte) : (latchByte b s).txlen = s.txlen := rfl
@[simp] theorem latchByte_rxbuf (b : Byte) : (latchByte b s).rxbuf = s.rxbuf := rfl
@[simp] theorem latchByte_rxlen (b : Byte) : (latchByte b s).rxlen = s.rxlen := rfl
@[simp] theorem latchByte_rbyte (b : Byte) : (latchByte b s).rbyte = b := rfl
@[simp] theorem latchByte_resp (b : Byte) : (latchByte b s).resp = s.resp := rfl
@[simp] theorem latchByte_req (b : Byte) : (latchByte b s).req = s.req := rfl
@[simp] theorem latchByte_cfg (b : Byte) : (latchByte b s).cfg = s.cfg := rfl
@[simp] theorem latchByte_pc (b : Byte) : (latchByte b s).pc = s.pc := rfl
@[simp] theorem latchByte_program (b : Byte) : (latchByte b s).program = s.program := rfl
@[simp] theorem latchByte_answers (b : Byte) : (latchByte b s).answers = s.answers := rfl
@[simp] theorem latchByte_trace (b : Byte) : (latchByte b s).trace = s.trace := rfl
@[simp] theorem latchByte_responses (b : Byte) : (latchByte b s).responses = s.responses := rfl
@[simp] theorem latchByte_draws (b : Byte) : (latchByte b s).draws = s.draws := rfl

@[simp] theorem releaseByte_fmt : (releaseByte s).fmt = s.fmt := rfl
@[simp] theorem releaseByte_seq : (releaseByte s).seq = s.seq := rfl
@[simp] theorem releaseByte_cs : (releaseByte s).cs = s.cs := rfl
@[simp] theorem releaseByte_txbuf : (releaseByte s).txbuf = s.txbuf := rfl
@[simp] theorem releaseByte_txlen : (releaseByte s).txlen = s.txlen := rfl
@[simp] theorem releaseByte_rxbuf : (releaseByte s).rxbuf = s.rxbuf := rfl
@[simp] theorem releaseByte_rxlen : (releaseByte s).rxlen = s.rxlen := rfl
@[simp] theorem releaseByte_rbyte : (releaseByte s).rbyte = Config.freeByte s.draws := rfl
@[simp] theorem releaseByte_resp : (releaseByte s).resp = s.resp := rfl
@[simp] theorem releaseByte_req : (releaseByte s).req = s.req := rfl
@[simp] theorem releaseByte_cfg : (releaseByte s).cfg = s.cfg := rfl
@[simp] theorem releaseByte_pc : (releaseByte s).pc = s.pc := rfl
@[simp] theorem releaseByte_program : (releaseByte s).program = s.program := rfl
@[simp] theorem releaseByte_answers : (releaseByte s).answers = s.answers := rfl
@[simp] theorem releaseByte_trace : (releaseByte s).trace = s.trace := rfl
@[simp] theorem releaseByte_responses : (releaseByte s).responses = s.responses := rfl
@[simp] theorem releaseByte_draws : (releaseByte s).draws = s.draws + 1 := rfl

@[simp] theorem setFmt_fmt (f : Format) : (setFmt f s).fmt = f := rfl
@[simp] theorem setFmt_seq (f : Format) : (setFmt f s).seq = s.seq := rfl
@[simp] theorem setFmt_cs (f : Format) : (setFmt f s).cs = s.cs := rfl
@[simp] theorem setFmt_txbuf (f : Format) : (setFmt f s).txbuf = s.txbuf := rfl
@[simp] theorem setFmt_txlen (f : Format) : (setFmt f s).txlen = s.txlen := rfl
@[simp] theorem setFmt_rxbuf (f : Format) : (setFmt f s).rxbuf = s.rxbuf := rfl
@[simp] theorem setFmt_rxlen (f : Format) : (setFmt f s).rxlen = s.rxlen := rfl
@[simp] theorem setFmt_rbyte (f : Format) : (setFmt f s).rbyte = s.rbyte := rfl
@[simp] theorem setFmt_resp (f : Format) : (setFmt f s).resp = s.resp := rfl
@[simp] theorem setFmt_req (f : Format) : (setFmt f s).req = s.req := rfl
@[simp] theorem setFmt_cfg (f : Format) : (setFmt f s).cfg = s.cfg := rfl
@[simp] theorem setFmt_pc (f : Format) : (setFmt f s).pc = s.pc := rfl
@[simp] theorem setFmt_program (f : Format) : (setFmt f s).program = s.program := rfl
@[simp] theorem setFmt_answers (f : Format) : (setFmt f s).answers = s.answers := rfl
@[simp] theorem setFmt_trace (f : Format) : (setFmt f s).trace = s.trace := rfl
@[simp] theorem setFmt_responses (f : Format) : (setFmt f s).responses = s.responses := rfl
@[simp] theorem setFmt_draws (f : Format) : (setFmt f s).draws = s.draws := rfl

@[simp] theorem respond_fmt (st : Status) (d : Data) : (respond st d s).fmt = s.fmt := rfl
@[simp] theorem respond_seq (st : Status) (d : Data) : (respond st d s).seq = .respond := rfl
@[simp] theorem respond_cs (st : Status) (d : Data) : (respond st d s).cs = s.cs := rfl
@[simp] theorem respond_txbuf (st : Status) (d : Data) : (respond st d s).txbuf = Config.freeTx s.draws := rfl
@[simp] theorem respond_txlen (st : Status) (d : Data) : (respond st d s).txlen = 0 := rfl
@[simp] theorem respond_rxbuf (st : Status) (d : Data) : (respond st d s).rxbuf = Config.freeRx s.draws := rfl
@[simp] theorem respond_rxlen (st : Status) (d : Data) : (respond st d s).rxlen = 0 := rfl
@[simp] theorem respond_rbyte (st : Status) (d : Data) : (respond st d s).rbyte = s.rbyte := rfl
@[simp] theorem respond_resp (st : Status) (d : Data) : (respond st d s).resp = some ⟨st, d⟩ := rfl
@[simp] theorem respond_req (st : Status) (d : Data) : (respond st d s).req = none := rfl
@[simp] theorem respond_cfg (st : Status) (d : Data) : (respond st d s).cfg = s.cfg := rfl
@[simp] theorem respond_pc (st : Status) (d : Data) : (respond st d s).pc = s.pc := rfl
@[simp] theorem respond_program (st : Status) (d : Data) : (respond st d s).program = s.program := rfl
@[simp] theorem respond_answers (st : Status) (d : Data) : (respond st d s).answers = s.answers := rfl
@[simp] theorem respond_trace (st : Status) (d : Data) : (respond st d s).trace = s.trace := rfl
@[simp] theorem respond_responses (st : Status) (d : Data) : (respond st d s).responses = s.responses := rfl
@[simp] theorem respond_draws (st : Status) (d : Data) : (respond st d s).draws = s.draws + 1 := rfl

@[simp] theorem raise_fmt (st : Status) : (raise st s).fmt = s.fmt := rfl
@[simp] theorem raise_seq (st : Status) : (raise st s).seq = .respond := rfl
@[simp] theorem raise_cs (st : Status) : (raise st s).cs = s.cs := rfl
@[simp] theorem raise_txbuf (st : Status) : (raise st s).txbuf = Config.freeTx s.draws := rfl
@[simp] theorem raise_txlen (st : Status) : (raise st s).txlen = 0 := rfl
@[simp] theorem raise_rxbuf (st : Status) : (raise st s).rxbuf = Config.freeRx s.draws := rfl
@[simp] theorem raise_rxlen (st : Status) : (raise st s).rxlen = 0 := rfl
@[simp] theorem raise_rbyte (st : Status) : (raise st s).rbyte = s.rbyte := rfl
@[simp] theorem raise_resp (st : Status) : (raise st s).resp = some ⟨st, .none⟩ := rfl
@[simp] theorem raise_req (st : Status) : (raise st s).req = none := rfl
@[simp] theorem raise_cfg (st : Status) : (raise st s).cfg = s.cfg := rfl
@[simp] theorem raise_pc (st : Status) : (raise st s).pc = s.pc := rfl
@[simp] theorem raise_program (st : Status) : (raise st s).program = s.program := rfl
@[simp] theorem raise_answers (st : Status) : (raise st s).answers = s.answers := rfl
@[simp] theorem raise_trace (st : Status) : (raise st s).trace = s.trace := rfl
@[simp] theorem raise_responses (st : Status) : (raise st s).responses = s.responses := rfl
@[simp] theorem raise_draws (st : Status) : (raise st s).draws = s.draws + 1 := rfl

@[simp] theorem presentWord_fmt (w : ReqWord) : (presentWord w s).fmt = s.fmt := rfl
@[simp] theorem presentWord_seq (w : ReqWord) : (presentWord w s).seq = .idle := rfl
@[simp] theorem presentWord_cs (w : ReqWord) : (presentWord w s).cs = .high := rfl
@[simp] theorem presentWord_txbuf (w : ReqWord) : (presentWord w s).txbuf = s.txbuf := rfl
@[simp] theorem presentWord_txlen (w : ReqWord) : (presentWord w s).txlen = s.txlen := rfl
@[simp] theorem presentWord_rxbuf (w : ReqWord) : (presentWord w s).rxbuf = s.rxbuf := rfl
@[simp] theorem presentWord_rxlen (w : ReqWord) : (presentWord w s).rxlen = s.rxlen := rfl
@[simp] theorem presentWord_rbyte (w : ReqWord) : (presentWord w s).rbyte = s.rbyte := rfl
@[simp] theorem presentWord_resp (w : ReqWord) : (presentWord w s).resp = none := rfl
@[simp] theorem presentWord_req (w : ReqWord) : (presentWord w s).req = none := rfl
@[simp] theorem presentWord_cfg (w : ReqWord) : (presentWord w s).cfg = s.cfg := rfl
@[simp] theorem presentWord_pc (w : ReqWord) : (presentWord w s).pc = s.pc := rfl
@[simp] theorem presentWord_program (w : ReqWord) : (presentWord w s).program = placeWord w s := rfl
@[simp] theorem presentWord_answers (w : ReqWord) : (presentWord w s).answers = s.answers := rfl
@[simp] theorem presentWord_trace (w : ReqWord) : (presentWord w s).trace = s.trace := rfl
@[simp] theorem presentWord_responses (w : ReqWord) : (presentWord w s).responses = s.responses := rfl
@[simp] theorem presentWord_draws (w : ReqWord) : (presentWord w s).draws = s.draws := rfl

@[simp] theorem presentFrame_fmt (i : Instr) (tx : Bytes) : (presentFrame i tx s).fmt = s.fmt := rfl
@[simp] theorem presentFrame_seq (i : Instr) (tx : Bytes) : (presentFrame i tx s).seq = .xfer 1 := rfl
@[simp] theorem presentFrame_cs (i : Instr) (tx : Bytes) : (presentFrame i tx s).cs = .low := rfl
@[simp] theorem presentFrame_txbuf (i : Instr) (tx : Bytes) : (presentFrame i tx s).txbuf = fill tx s.txbuf := rfl
@[simp] theorem presentFrame_txlen (i : Instr) (tx : Bytes) : (presentFrame i tx s).txlen = tx.length := rfl
@[simp] theorem presentFrame_rxbuf (i : Instr) (tx : Bytes) : (presentFrame i tx s).rxbuf = s.rxbuf := rfl
@[simp] theorem presentFrame_rxlen (i : Instr) (tx : Bytes) : (presentFrame i tx s).rxlen = s.rxlen := rfl
@[simp] theorem presentFrame_rbyte (i : Instr) (tx : Bytes) : (presentFrame i tx s).rbyte = s.rbyte := rfl
@[simp] theorem presentFrame_resp (i : Instr) (tx : Bytes) : (presentFrame i tx s).resp = none := rfl
@[simp] theorem presentFrame_req (i : Instr) (tx : Bytes) : (presentFrame i tx s).req = some i := rfl
@[simp] theorem presentFrame_cfg (i : Instr) (tx : Bytes) : (presentFrame i tx s).cfg = s.cfg := rfl
@[simp] theorem presentFrame_pc (i : Instr) (tx : Bytes) : (presentFrame i tx s).pc = s.pc := rfl
@[simp] theorem presentFrame_program (i : Instr) (tx : Bytes) : (presentFrame i tx s).program = s.program := rfl
@[simp] theorem presentFrame_answers (i : Instr) (tx : Bytes) : (presentFrame i tx s).answers = s.answers := rfl
@[simp] theorem presentFrame_trace (i : Instr) (tx : Bytes) : (presentFrame i tx s).trace = s.trace := rfl
@[simp] theorem presentFrame_responses (i : Instr) (tx : Bytes) : (presentFrame i tx s).responses = s.responses := rfl
@[simp] theorem presentFrame_draws (i : Instr) (tx : Bytes) : (presentFrame i tx s).draws = s.draws := rfl

/-! The lists the buffers hold. -/

theorem fill_take {l : Bytes} (h : l.length ≤ 256) (rest : Buffer) :
    (fill l rest).toList.take l.length = l := by
  simp [fill, Vector.toList, List.take_take, Nat.min_eq_left h]

theorem tx_length : s.tx.length = min s.txlen 256 := by simp [State.tx]

theorem rx_length : s.rx.length = min s.rxlen 256 := by simp [State.rx]

theorem tx_length_le : s.tx.length ≤ 256 := by rw [tx_length]; omega

@[simp] theorem present_tx (k : Nat) {tx : Bytes} (h : tx.length ≤ 256) : (present k tx s).tx = tx :=
  fill_take h _

@[simp] theorem presentFrame_tx (i : Instr) {tx : Bytes} (h : tx.length ≤ 256) :
    (presentFrame i tx s).tx = tx := fill_take h _

@[simp] theorem receive_rx {rx : Bytes} (h : rx.length ≤ 256) : (receive rx s).rx = rx :=
  fill_take h _

@[simp] theorem accept_tx (i : Instr) : (accept i s).tx = s.tx := rfl
@[simp] theorem accept_rx (i : Instr) : (accept i s).rx = s.rx := rfl
@[simp] theorem toStep_tx (k : Nat) : (toStep k s).tx = s.tx := rfl
@[simp] theorem toStep_rx (k : Nat) : (toStep k s).rx = s.rx := rfl
@[simp] theorem receive_tx (rx : Bytes) : (receive rx s).tx = s.tx := rfl
@[simp] theorem latchByte_tx (b : Byte) : (latchByte b s).tx = s.tx := rfl
@[simp] theorem latchByte_rx (b : Byte) : (latchByte b s).rx = s.rx := rfl
@[simp] theorem releaseByte_tx : (releaseByte s).tx = s.tx := rfl
@[simp] theorem releaseByte_rx : (releaseByte s).rx = s.rx := rfl
@[simp] theorem setFmt_tx (f : Format) : (setFmt f s).tx = s.tx := rfl
@[simp] theorem setFmt_rx (f : Format) : (setFmt f s).rx = s.rx := rfl
@[simp] theorem endXfer_rx (o : Answer) : (endXfer o s).rx = s.rx := rfl
@[simp] theorem endXfer_tx (o : Answer) : (endXfer o s).tx = [] := rfl
@[simp] theorem respond_tx (st : Status) (d : Data) : (respond st d s).tx = [] := rfl
@[simp] theorem respond_rx (st : Status) (d : Data) : (respond st d s).rx = [] := rfl
@[simp] theorem raise_tx (st : Status) : (raise st s).tx = [] := rfl
@[simp] theorem raise_rx (st : Status) : (raise st s).rx = [] := rfl
@[simp] theorem present_rx (k : Nat) (tx : Bytes) : (present k tx s).rx = [] := rfl

end Sys2Proof.Machine
end

