-- ==== Sys2Proof/Laws/Ops.lean ====
section
/-! SUPPORT. What each shared operation answers: an equation for each place of the sequencer, and one
inversion lemma for each operation, which proofs cite instead of unfolding it. -/

namespace Sys2Proof.Machine

variable {s t : State} {i : Instr} {k : Nat}

/-! ## runRequest -/

section
variable {st : Nat → State → Result} {an : Nat → Bytes → State → Result}

theorem runRequest_idle (h : s.seq = .idle) : runRequest i st an s = .next (accept i s) := by
  simp [runRequest, h]

theorem runRequest_step (h : s.seq = .step k) (hr : s.req = some i) :
    runRequest i st an s = st k s := by
  simp [runRequest, h, hr]

theorem runRequest_xfer (h : s.seq = .xfer k) (hr : s.req = some i) :
    runRequest i st an s = exchange (an k) s := by
  simp [runRequest, h, hr]

theorem runRequest_cases (h : runRequest i st an s = .next t) :
    (s.seq = .idle ∧ t = accept i s) ∨
      (∃ k, s.seq = .step k ∧ s.req = some i ∧ st k s = .next t) ∨
      (∃ k, s.seq = .xfer k ∧ s.req = some i ∧ exchange (an k) s = .next t) := by
  unfold runRequest at h
  split at h
  · exact .inl ⟨‹_›, by injection h with h; exact h.symm⟩
  · split at h
    · exact .inr (.inl ⟨_, ‹_›, ‹_›, h⟩)
    · cases h
  · split at h
    · exact .inr (.inr ⟨_, ‹_›, ‹_›, h⟩)
    · cases h
  · cases h

end

/-! ## exchange -/

section
variable {f : Bytes → State → Result} {rx : Bytes} {rest : List Answer}

theorem exchange_silent (h : s.answers = []) : exchange f s = .next s := by
  simp [exchange, h]

theorem exchange_fail (h : s.answers = .fail :: rest) :
    exchange f s = .next (raise .commsFailure (endXfer .fail s)) := by
  simp [exchange, h]

theorem exchange_ok (h : s.answers = .ok rx :: rest) (hl : rx.length = s.tx.length) :
    exchange f s = f rx (receive rx (endXfer (.ok rx) s)) := by
  simp [exchange, h, hl]

theorem exchange_cases (h : exchange f s = .next t) :
    (s.answers = [] ∧ t = s) ∨
      (∃ rest, s.answers = .fail :: rest ∧ t = raise .commsFailure (endXfer .fail s)) ∨
      (∃ rx rest, s.answers = .ok rx :: rest ∧ rx.length = s.tx.length ∧
        f rx (receive rx (endXfer (.ok rx) s)) = .next t) := by
  unfold exchange at h
  split at h
  · exact .inl ⟨‹_›, by injection h with h; exact h.symm⟩
  · exact .inr (.inl ⟨_, ‹_›, by injection h with h; exact h.symm⟩)
  · split at h
    · exact .inr (.inr ⟨_, _, ‹_›, ‹_›, h⟩)
    · cases h

end

/-! ## withReadByte, takeResponse, runFrame -/

theorem withReadByte_cases {rx : Bytes} {f : Byte → Result} (h : withReadByte rx f = .next t) :
    ∃ b0 b r, rx = b0 :: b :: r ∧ f b = .next t := by
  unfold withReadByte at h
  split at h
  · exact ⟨_, _, _, rfl, h⟩
  · cases h

theorem withReadByte_two {rx : Bytes} {f : Byte → Result} (h : rx.length = 2) :
    ∃ b0 b, rx = [b0, b] ∧ withReadByte rx f = f b := by
  match rx, h with
  | [b0, b], _ => exact ⟨b0, b, rfl, rfl⟩

theorem takeResponse_cases (h : takeResponse s = .next t) :
    ∃ r, s.resp = some r ∧
      t = { s with seq := .idle, resp := none, responses := s.responses ++ [r], pc := s.pc + 1 } := by
  unfold takeResponse at h
  split at h
  · exact ⟨_, ‹_›, by injection h with h; exact h.symm⟩
  · cases h

theorem runFrame_eq {c : Byte} (h : s.seq = .xfer k) (hc : s.tx.head? = some c)
    (hr : s.req = some i) : runFrame c s = exchange (answered i k) s := by
  simp [runFrame, h, hc, hr]

theorem runFrame_cases {c : Byte} (h : runFrame c s = .next t) :
    ∃ k i, s.seq = .xfer k ∧ s.tx.head? = some c ∧ s.req = some i ∧
      exchange (answered i k) s = .next t := by
  unfold runFrame at h
  split at h
  · split at h
    · split at h
      · exact ⟨_, _, ‹_›, ‹_›, ‹_›, h⟩
      · cases h
    · cases h
  · cases h

/-! ## exec of a request -/

/-- In `IDLE` every request is taken by the port. -/
theorem exec_idle (hq : i.isRequest = true) (h : s.seq = .idle) : exec i s = .next (accept i s) := by
  cases i <;> first | exact runRequest_idle h | cases hq

/-- In `XFER(k)` every request in progress awaits and uses its answer. -/
theorem exec_xfer (hq : i.isRequest = true) (h : s.seq = .xfer k) (hr : s.req = some i) :
    exec i s = exchange (answered i k) s := by
  cases i <;> first | exact runRequest_xfer h hr | cases hq

/-! In `STEP(k)` a request in progress runs its step list. -/

theorem selb_step (bank : Byte) (h : s.seq = .step k) (hr : s.req = some (.selb bank)) :
    exec (.selb bank) s = selbSteps bank k s := runRequest_step h hr

theorem rdr_step (addr : Byte) (h : s.seq = .step k) (hr : s.req = some (.rdr addr)) :
    exec (.rdr addr) s = rdrSteps addr k s := runRequest_step h hr

theorem wrr_step (addr data : Byte) (h : s.seq = .step k) (hr : s.req = some (.wrr addr data)) :
    exec (.wrr addr data) s = wrrSteps addr data k s := runRequest_step h hr

theorem rmw_step (mask addr value : Byte) (shift : BitVec 3) (h : s.seq = .step k) (hr : s.req = some (.rmw mask addr value shift)) :
    exec (.rmw mask addr value shift) s = rmwSteps mask addr value shift k s := runRequest_step h hr

theorem brd_step (addr count : Byte) (h : s.seq = .step k) (hr : s.req = some (.brd addr count)) :
    exec (.brd addr count) s = brdSteps addr count k s := runRequest_step h hr

theorem cfgf_step (format : Byte) (h : s.seq = .step k) (hr : s.req = some (.cfgf format)) :
    exec (.cfgf format) s = cfgfSteps format k s := runRequest_step h hr

theorem rdf_step (fields : Presence) (h : s.seq = .step k) (hr : s.req = some (.rdf fields)) :
    exec (.rdf fields) s = rdfSteps fields k s := runRequest_step h hr

theorem reserved0_step (h : s.seq = .step k) (hr : s.req = some .reserved0) :
    exec .reserved0 s = reservedSteps k s := runRequest_step h hr

theorem reserved8F_step (op : BitVec 4) (h : s.seq = .step k) (hr : s.req = some (.reserved8F op)) :
    exec (.reserved8F op) s = reservedSteps k s := runRequest_step h hr

/-! ## step -/

theorem step_idle {w : ReqWord} (h : s.seq = .idle) (hw : s.program[s.pc]? = some w) :
    step s = exec (decodeRequest w) s := by
  simp [step, fetch, h, hw]

theorem step_wait (h : s.seq = .idle) (hw : s.program[s.pc]? = none) : step s = .next s := by
  simp only [step, fetch, h, hw]

theorem step_step (h : s.seq = .step k) (hr : s.req = some i) : step s = exec i s := by
  simp [step, fetch, h, hr]

theorem step_respond (h : s.seq = .respond) : step s = takeResponse s := by
  simp [step, fetch, h]

/-- A response held in `RESPOND` is taken. -/
theorem step_taken {r : Response} (h : s.seq = .respond) (hr : s.resp = some r) :
    step s = .next { s with seq := .idle, resp := none, responses := s.responses ++ [r], pc := s.pc + 1 } := by
  simp [step_respond h, takeResponse, hr]

/-- On the transport port the frame runs, whichever of the two it is: the answer goes to the request in
progress. -/
theorem step_xfer {c : Byte} {l : Bytes} (h : s.seq = .xfer k) (htx : s.tx = c :: l)
    (hr : s.req = some i) : step s = exchange (answered i k) s := by
  have hf := runFrame_eq (c := c) h (by simp [htx]) hr
  obtain ⟨a, ha, hc⟩ | ⟨a, ha, hc⟩ := decodeCommand_cases c <;>
    simp [step, fetch, h, htx, ha, exec, execSpiRead, execSpiWrite, ← hc, hf]

theorem fetch_wait (h : fetch s = .wait) : s.seq = .idle ∧ s.program[s.pc]? = none := by
  unfold fetch at h
  split at h
  · split at h
    · cases h
    · exact ⟨‹_›, ‹_›⟩
  · split at h <;> cases h
  · split at h <;> cases h
  · cases h

theorem fetch_take (h : fetch s = .take) : s.seq = .respond := by
  unfold fetch at h
  split at h
  · split at h <;> cases h
  · split at h <;> cases h
  · split at h <;> cases h
  · assumption

/-- What a step can be: an instruction runs, the RAC waits in `IDLE`, or the response is taken. -/
theorem step_cases (h : step s = .next t) :
    (∃ i, fetch s = .run i ∧ exec i s = .next t) ∨
      (s.seq = .idle ∧ s.program[s.pc]? = none ∧ t = s) ∨
      (s.seq = .respond ∧ takeResponse s = .next t) := by
  unfold step at h
  split at h
  · exact .inl ⟨_, ‹_›, h⟩
  · have := fetch_wait ‹_›
    exact .inr (.inl ⟨this.1, this.2, by injection h with h; exact h.symm⟩)
  · exact .inr (.inr ⟨fetch_take ‹_›, h⟩)
  · cases h

end Sys2Proof.Machine
end

