-- ==== Sys2Proof/Laws/Move.lean ====
section
/-! SUPPORT. Everything an instruction can do when it answers a next state: one constructor of Move for
each move of the sequencer. Frames and invariants of all instructions follow by cases. -/

namespace Sys2Proof.Machine

/-- The request whose read-modify-write uses `RBYTE` (40 R101, 45 R133). -/
def usesByte : Instr → Bool
  | .rmw _ _ _ _ | .cfgf _ => true
  | _ => false

/-- The moves from state `s` while instruction `i` runs. -/
inductive Move (i : Instr) (s : State) : State → Prop where
  /-- the request port takes `i` -/
  | accept (h : s.seq = .idle) : Move i s (accept i s)
  /-- no answer yet -/
  | silent {k} (h : s.seq = .xfer k) (ha : s.answers = []) : Move i s s
  /-- the transaction fails -/
  | fail {k rest} (h : s.seq = .xfer k) (ha : s.answers = .fail :: rest) :
      Move i s (raise .commsFailure (endXfer .fail s))
  /-- a step with no transaction completes -/
  | advance {k j} (h : s.seq = .step k) (hr : s.req = some i) : Move i s (toStep j s)
  /-- a check of the request fails -/
  | refuse {k} (st : Status) (h : s.seq = .step k) (hr : s.req = some i)
      (hst : st = .invalidArgument ∨ st = .notConfigured) : Move i s (raise st s)
  /-- a transaction begins -/
  | present {k} (tx : Bytes) (h : s.seq = .step k) (hr : s.req = some i) :
      Move i s (present k tx s)
  /-- the write of a read-modify-write begins -/
  | presentByte {k} (tx : Bytes) (h : s.seq = .step k) (hr : s.req = some i)
      (hi : usesByte i = true) : Move i s (present k tx (releaseByte s))
  /-- CFGF's last step -/
  | configure (format : Byte) (hi : i = .cfgf format) (h : s.seq = .step 7) (hr : s.req = some i) :
      Move i s (respond .ok .none (setFmt (format.setWidth 3) s))
  /-- RDF's last step -/
  | sliced (r : FieldRecord) (h : s.seq = .step 5) (hr : s.req = some i) :
      Move i s (respond .ok (.fields r) s)
  /-- an Ok answer, the request goes on -/
  | resume {k j rx rest} (h : s.seq = .xfer k) (ha : s.answers = .ok rx :: rest)
      (hl : rx.length = s.tx.length) : Move i s (toStep j (receive rx (endXfer (.ok rx) s)))
  /-- an Ok answer to the read of a read-modify-write -/
  | latch {k j rx rest} (b : Byte) (r : Instr) (h : s.seq = .xfer k) (hr : s.req = some r)
      (hi : usesByte r = true) (ha : s.answers = .ok rx :: rest)
      (hl : rx.length = s.tx.length) :
      Move i s (toStep j (latchByte b (receive rx (endXfer (.ok rx) s))))
  /-- an Ok answer that ends the request -/
  | finish {k rx rest} (d : Data) (h : s.seq = .xfer k) (ha : s.answers = .ok rx :: rest)
      (hl : rx.length = s.tx.length) :
      Move i s (respond .ok d (receive rx (endXfer (.ok rx) s)))

variable {s t : State} {i r : Instr} {k : Nat}

/-- What a request does with an Ok answer. -/
theorem answered_move {rx : Bytes} {rest : List Answer} (h : s.seq = .xfer k)
    (hr : s.req = some r) (ha : s.answers = .ok rx :: rest) (hl : rx.length = s.tx.length)
    (hn : answered r k rx (receive rx (endXfer (.ok rx) s)) = .next t) : Move i s t := by
  cases r <;>
    simp only [answered, selbAnswered, rdrAnswered, wrrAnswered, rmwAnswered, brdAnswered,
      cfgfAnswered, rdfAnswered, reservedAnswered] at hn
  all_goals first
    | cases hn
    | (split at hn <;> first
        | cases hn; done
        | (injection hn with hn; subst hn; exact .finish _ h ha hl)
        | (injection hn with hn; subst hn; exact .resume h ha hl)
        | (obtain ⟨_, b, _, _, hb⟩ := withReadByte_cases hn
           injection hb with hb; subst hb
           first
             | exact .finish _ h ha hl
             | exact .latch b _ h hr rfl ha hl))

/-- What a transaction step does with its answer. -/
theorem exchange_move (h : s.seq = .xfer k) (hr : s.req = some r)
    (hn : exchange (answered r k) s = .next t) : Move i s t := by
  obtain ⟨ha, rfl⟩ | ⟨rest, ha, rfl⟩ | ⟨rx, rest, ha, hl, hn⟩ := exchange_cases hn
  · exact .silent h ha
  · exact .fail h ha
  · exact answered_move h hr ha hl hn

/-- Everything a request's step list can do. -/
theorem runRequest_move {st : Nat → State → Result} {an : Nat → Bytes → State → Result}
    (han : ∀ k, an k = answered i k)
    (hst : ∀ k, s.seq = .step k → s.req = some i → st k s = .next t → Move i s t)
    (hn : runRequest i st an s = .next t) : Move i s t := by
  obtain ⟨h, rfl⟩ | ⟨k, h, hr, hk⟩ | ⟨k, h, hr, hk⟩ := runRequest_cases hn
  · exact .accept h
  · exact hst k h hr hk
  · exact exchange_move h hr (han k ▸ hk)

/-- Everything an instruction can do. -/
theorem exec_move (hn : exec i s = .next t) : Move i s t := by
  cases i with
  | spiRead a =>
    obtain ⟨k, r, h, -, hr, he⟩ := runFrame_cases hn
    exact exchange_move h hr he
  | spiWrite a =>
    obtain ⟨k, r, h, -, hr, he⟩ := runFrame_cases hn
    exact exchange_move h hr he
  | _ =>
    refine runRequest_move (fun _ => rfl) (fun k h hr hk => ?_) hn
    simp only [selbSteps, rdrSteps, wrrSteps, rmwSteps, brdSteps, cfgfSteps, rdfSteps,
      reservedSteps] at hk
    split at hk <;> try split at hk
    all_goals try split at hk
    all_goals first
      | (cases hk; done)
      | (injection hk with hk; subst hk; first
          | exact .advance h hr
          | exact .refuse _ h hr (.inl rfl)
          | exact .refuse _ h hr (.inr rfl)
          | exact .presentByte _ h hr rfl
          | exact .present _ h hr
          | exact .configure _ rfl h hr
          | exact .sliced _ h hr)

end Sys2Proof.Machine
end

