-- ==== Sys2Proof/Laws/Operands.lean ====
section
/-! SUPPORT. The operand forms: command bytes in the spec's arithmetic, the argument checks as
comparisons, and where the packet tables are defined. -/

namespace Sys2Proof.Machine

/-! ## Frames -/

theorem commandByte_read (a : Addr) : commandByte true a = 0x80#8 ||| a.setWidth 8 := by
  revert a; decide

theorem commandByte_write (a : Addr) : commandByte false a = a.setWidth 8 := by
  revert a; decide

theorem commandByte_read_addr (A : Byte) :
    commandByte true (deviceAddr A) = 0x80#8 ||| (A &&& 0x7F#8) := by
  revert A; decide

theorem commandByte_write_addr (A : Byte) : commandByte false (deviceAddr A) = A &&& 0x7F#8 := by
  revert A; decide

/-- A read's command byte is no write's. -/
theorem commandByte_ne (a b : Addr) : commandByte true a ≠ commandByte false b := by
  intro h
  have := congrArg decodeCommand h
  simp [decodeCommand_commandByte] at this

@[simp] theorem readFrame_length (p : Params) (a : Addr) (n : Nat) :
    (readFrame p a n).length = n + 1 := by
  simp [readFrame]

@[simp] theorem writeFrame_length (a : Addr) (d : Byte) : (writeFrame a d).length = 2 := rfl

@[simp] theorem readFrame_head (p : Params) (a : Addr) (n : Nat) :
    (readFrame p a n).head? = some (commandByte true a) := rfl

@[simp] theorem writeFrame_head (a : Addr) (d : Byte) :
    (writeFrame a d).head? = some (commandByte false a) := rfl

/-! ## Argument checks -/

theorem bankRefused_iff (bank : Byte) : bankRefused bank = true ↔ 4 < bank.toNat := by
  simp [bankRefused, BitVec.lt_def]

theorem countRefused_iff (count : Byte) : countRefused count = true ↔ count.toNat < 2 := by
  simp [countRefused, BitVec.lt_def]

theorem formatRefused_iff (format : Byte) :
    formatRefused format = true ↔ ¬(1 ≤ format.toNat ∧ format.toNat ≤ 4) := by
  simp [formatRefused, BitVec.le_def]
  omega

/-! ## Packet formats -/

/-- An accepted format has a pattern. -/
theorem fifoPattern_some (p : Params) {format : Byte} (h : formatRefused format = false) :
    ∃ b, fifoPattern p format = some b := by
  have hr : ¬ formatRefused format = true := by simp [h]
  rw [formatRefused_iff] at hr
  unfold fifoPattern
  split <;> simp
  simp only [imp_false] at *
  omega

/-- A format with a packet layout has a length and a required set, and is 1 to 4. -/
theorem layout_some {f : Format} (h : f ≤ 4#3) (h0 : f ≠ 0) :
    ∃ len req, fifoLen f = some len ∧ requiredFields f = some req ∧ 8 ≤ len ∧ len ≤ 20 := by
  have key : ∀ f : Format, f ≤ 4#3 → f ≠ 0 → f = 1 ∨ f = 2 ∨ f = 3 ∨ f = 4 := by decide
  obtain rfl | rfl | rfl | rfl := key f h h0 <;> exact ⟨_, _, rfl, rfl, by decide, by decide⟩

theorem fifoLen_bounds {f : Format} {len : Nat} (h : fifoLen f = some len) :
    8 ≤ len ∧ len ≤ 20 := by
  unfold fifoLen at h
  split at h <;> simp at h <;> omega

/-- The packet tables are defined for the same formats. -/
theorem fifoLen_of_requiredFields {f : Format} {req : Presence} (h : requiredFields f = some req) :
    ∃ len, fifoLen f = some len := by
  unfold requiredFields at h
  unfold fifoLen
  split at h <;> simp at h ⊢

end Sys2Proof.Machine
end

