-- ==== Sys2Proof/Laws/Inv.lean ====
section
/-! SUPPORT. What the invariant says at each place of the sequencer, and that every legal transaction's Ok
answer is used. -/

namespace Sys2Proof.Machine

variable {s t : State} {i : Instr} {k : Nat}

/-! ## The run function of the host -/

theorem run_succ {n : Nat} (h : step s = .next t) :
    Host.Core.run Sys2Proof.core (n + 1) s = Host.Core.run Sys2Proof.core n t := by
  have h' : Sys2Proof.core.step s = .next t := h
  simp [Host.Core.run, h']

/-! ## Places -/

theorem Inv.tx_length (hi : Inv s) : s.tx.length = s.txlen := by
  rw [Machine.tx_length, Nat.min_eq_left hi.tx_fits]

theorem Inv.rx_length (hi : Inv s) : s.rx.length = s.rxlen := by
  rw [Machine.rx_length, Nat.min_eq_left hi.rx_fits]

theorem Inv.of_step (hi : Inv s) (h : s.seq = .step k) :
    ∃ i, s.req = some i ∧ stepReached s.fmt i k = true ∧ packetHeld i k s = true := by
  have hp := hi.placed
  unfold Machine.placed at hp
  rw [h] at hp
  cases hr : s.req with
  | none => simp [hr] at hp
  | some i => simpa [hr] using hp

theorem Inv.of_xfer (hi : Inv s) (h : s.seq = .xfer k) :
    ∃ i c l, s.req = some i ∧ s.tx = c :: l ∧ stepReached s.fmt i k = true ∧
      stepFrame s.cfg s.fmt i k = some (c, s.tx.length) := by
  have hp := hi.placed
  unfold Machine.placed at hp
  rw [h] at hp
  cases hr : s.req with
  | none => simp [hr] at hp
  | some i =>
    cases ht : s.tx with
    | nil => simp [hr, framePresented, ht] at hp
    | cons c l =>
      simp only [hr, framePresented, ht, Bool.and_eq_true, decide_eq_true_eq] at hp
      exact ⟨i, c, l, rfl, rfl, hp.1, hp.2⟩

/-- In a legal state a transaction step is the exchange for the request in progress. -/
theorem Inv.step_xfer (hi : Inv s) (h : s.seq = .xfer k) :
    ∃ i c, s.req = some i ∧ step s = exchange (answered i k) s ∧ stepReached s.fmt i k = true ∧
      s.tx.head? = some c ∧ stepFrame s.cfg s.fmt i k = some (c, s.tx.length) := by
  obtain ⟨i, c, l, hr, ht, h1, h2⟩ := hi.of_xfer h
  exact ⟨i, c, hr, Machine.step_xfer h ht hr, h1, by simp [ht], h2⟩

theorem Inv.req_none_of_idle (hi : Inv s) (h : s.seq = .idle) : s.req = none := by
  have hp := hi.placed
  unfold Machine.placed at hp
  rw [h] at hp
  cases hr : s.req <;> simp_all

theorem Inv.req_none_of_respond (hi : Inv s) (h : s.seq = .respond) : s.req = none := by
  have hp := hi.placed
  unfold Machine.placed at hp
  rw [h] at hp
  cases hr : s.req <;> simp_all

theorem Inv.resp_none (hi : Inv s) (h : s.seq ≠ .respond) : s.resp = none := by
  simpa [inRespond, h] using hi.resp_held

/-! ## Frames of steps -/

/-- Every frame of a step reached has 2 to 256 bytes (10_state R27). -/
theorem stepFrame_bounds {p : Params} {f : Format} {c : Byte} {n : Nat}
    (hr : stepReached f i k = true) (h : stepFrame p f i k = some (c, n)) : 2 ≤ n ∧ n ≤ 256 := by
  cases i with
  | brd a count =>
    have h2 := count.isLt
    simp only [stepFrame, Option.ite_none_right_eq_some, Option.some.injEq, Prod.mk.injEq] at h
    obtain ⟨rfl, -, rfl⟩ := h
    have hc : ¬ countRefused count = true := by simpa [stepReached] using hr
    rw [countRefused_iff] at hc
    omega
  | rdf fl =>
    simp only [stepFrame] at h
    split at h
    · simp at h; omega
    · split at h <;> simp at h
      obtain ⟨n, hl, -, rfl⟩ := h
      have := fifoLen_bounds hl
      omega
  | _ =>
    simp only [stepFrame] at h
    repeat' split at h
    all_goals simp at h
    all_goals omega

/-- A legal transaction answered Ok goes on. -/
theorem answered_next {p : Params} {f : Format} {c : Byte} {rx : Bytes}
    (hf : stepFrame p f i k = some (c, rx.length)) (u : State) :
    ∃ t, answered i k rx u = .next t := by
  have wr : ∀ g : Byte → State, rx.length = 2 →
      ∃ t, (withReadByte rx fun b => .next (g b)) = .next t := by
    intro g h
    obtain ⟨a, b, rfl, e⟩ := withReadByte_two (rx := rx) (f := fun b => .next (g b)) h
    exact ⟨_, rfl⟩
  cases i with
  | rdr a => simp [stepFrame] at hf; obtain ⟨rfl, -, h⟩ := hf; exact wr _ h.symm
  | rmw m a v sh =>
    simp only [stepFrame] at hf
    split at hf
    · simp at hf; subst k; exact wr _ hf.2.symm
    · split at hf <;> simp at hf
      subst k; exact ⟨_, rfl⟩
  | cfgf a =>
    simp only [stepFrame] at hf
    split at hf
    · subst k; exact ⟨_, rfl⟩
    · split at hf
      · simp at hf; subst k; exact wr _ hf.2.symm
      · split at hf
        · subst k; exact ⟨_, rfl⟩
        · split at hf <;> simp at hf
          subst k; exact ⟨_, rfl⟩
  | rdf a =>
    simp only [stepFrame] at hf
    split at hf
    · subst k; exact ⟨_, rfl⟩
    · split at hf <;> simp at hf
      subst k; exact ⟨_, rfl⟩
  | _ =>
    simp [stepFrame] at hf
    try (obtain ⟨rfl, -⟩ := hf; exact ⟨_, rfl⟩)

end Sys2Proof.Machine
end

