-- ==== Sys2Proof/Laws/PerInstr.lean ====
section
/-! SUPPORT. Statements made for each instruction. RoundTrip: decoding the encoding of a well-formed
instruction gives it back, every operand at every value its field admits. -/

namespace Sys2Proof.Laws.RoundTrip

/-- Decode and encode agree on `i`. -/
def Statement (i : Instr) : Prop := i.wellFormed = true → decode (encode i) = i

theorem selb (bank : Byte) : Statement (.selb bank) := by
  intro _; simp [decode, encode, decodeRequest]

theorem rdr (addr : Byte) : Statement (.rdr addr) := by
  intro _; simp [decode, encode, decodeRequest]

theorem wrr (addr data : Byte) : Statement (.wrr addr data) := by
  intro _; simp [decode, encode, decodeRequest]

theorem rmw (mask addr value : Byte) (shift : BitVec 3) :
    Statement (.rmw mask addr value shift) := by
  intro _; simp [decode, encode, decodeRequest]

theorem brd (addr count : Byte) : Statement (.brd addr count) := by
  intro _; simp [decode, encode, decodeRequest]

theorem cfgf (format : Byte) : Statement (.cfgf format) := by
  intro _; simp [decode, encode, decodeRequest]

theorem rdf (present : Presence) : Statement (.rdf present) := by
  intro _
  have h : (present.setWidth 8).extractLsb' 0 6 = present := by
    ext i hi; interval_cases i <;> simp
  simp [decode, encode, decodeRequest, h]

theorem reserved0 : Statement .reserved0 := by
  intro _; simp [decode, encode, decodeRequest]

theorem reserved8F (op : BitVec 4) : Statement (.reserved8F op) := by
  intro h
  have h8 : 8#4 ≤ op := by simpa [Instr.wellFormed] using h
  have := decodeRequest_of_reserved (requestWord op 0 0 0 0) (by simpa using h8)
  simpa [decode, encode] using this

theorem spiRead (addr : Addr) : Statement (.spiRead addr) := by
  intro _; simp [decode, encode, decodeCommand_commandByte]

theorem spiWrite (addr : Addr) : Statement (.spiWrite addr) := by
  intro _; simp [decode, encode, decodeCommand_commandByte]

end Sys2Proof.Laws.RoundTrip
end

