-- ==== Sys2Proof/Laws/Requester.lean ====
section
/-! SUPPORT. What the requester's loop answers: one lemma for each way a step, a request and a sequence of
requests can go. -/

namespace Sys2Proof.Machine

variable {s t : State}

theorem awaitResponse_wait {n : Nat} (h : step s = .next t) (hp : t.pc = s.pc) :
    awaitResponse (n + 1) s = awaitResponse n t := by
  simp [awaitResponse, h, hp]

theorem awaitResponse_taken {n : Nat} (h : step s = .next t) (hp : t.pc ≠ s.pc) :
    awaitResponse (n + 1) s = .next t := by
  simp [awaitResponse, h, hp]

theorem issueAll_ok {w : ReqWord} {ws : List ReqWord} (h : issue w s = .next t)
    (ho : answeredOk s t = true) : issueAll (w :: ws) s = issueAll ws t := by
  simp [issueAll, h, ho]

theorem issueAll_stop {w : ReqWord} {ws : List ReqWord} (h : issue w s = .next t)
    (ho : answeredOk s t = false) : issueAll (w :: ws) s = .next t := by
  simp [issueAll, h, ho]

/-- A word placed on the request port is the requester's next word. -/
theorem placeWord_at (w : ReqWord) (s : State) : (placeWord w s)[s.pc]? = some w := by
  have hl : (s.program.take s.pc ++ List.replicate (s.pc - s.program.length) (0 : ReqWord)).length
      = s.pc := by
    simp; omega
  unfold placeWord
  rw [List.getElem?_append_right (by omega), hl]
  simp

end Sys2Proof.Machine
end

