-- ==== Sys2Proof/Tests/Slice0.lean ====
section
/-! SUPPORT. Tests of the model's own: words written out from 30_encoding, single steps with the values of
95_test_vectors under the test configuration TC (92 D29), and a witness for the hypotheses of each
statement. -/

namespace Sys2Proof.Machine.Tests

/-! ## States the tests use -/

/-- The test configuration `TC` of 92_eei_decisions D29. -/
def tc : Params where
  bankSelAddr := 0x76
  fifoModeAddr := 0x16
  fifoModeMask := 0x03
  fifoModeShift := 6
  fifoModeStream := 0x01
  fifoFmtAddr := 0x5F
  fifoPattern1 := 0x05
  fifoPattern2 := 0x06
  fifoPattern3 := 0x0F
  fifoPattern4 := 0x1F
  fifoDataAddr := 0x30
  dummyTx := 0x00
  transport := 0
  csLine := ⟨0, 0⟩

/-- An `IDLE` RAC with a format, a program and answers to come. -/
def idle (f : Format) (program : List ReqWord) (answers : List Answer) : State where
  fmt := f
  seq := .idle
  cs := .high
  txbuf := Vector.replicate 256 0x00
  txlen := 0
  rxbuf := Vector.replicate 256 0x00
  rxlen := 0
  rbyte := 0x00
  resp := none
  req := none
  cfg := tc
  pc := 0
  program := program
  answers := answers
  trace := []
  responses := []
  draws := 0

/-- A RAC in `STEP(k)` of request `i`. -/
def inStep (f : Format) (i : Instr) (k : Nat) : State :=
  { idle f [] [] with seq := .step k, req := some i }

/-- A RAC in `XFER(k)` of request `i`, with its transaction on the port. -/
def inFlight (f : Format) (i : Instr) (k : Nat) (tx : Bytes) (answers : List Answer) : State :=
  { idle f [] answers with
    seq := .xfer k
    cs := .low
    req := some i
    txbuf := fill tx (Vector.replicate 256 0xA5)
    txlen := tx.length }

/-- A RAC with a response to take. -/
def answering (r : Response) : State := { idle 0 [] [] with seq := .respond, resp := some r }

/-- What a test looks at in a result: `SEQ`, `CS`, `FMT` and `RESP`. -/
def seen : Result → Option (Seq × Level × Format × Option Response)
  | .next t => some (t.seq, t.cs, t.fmt, t.resp)
  | _ => none

/-- The transaction on the transport port of a result. -/
def sent : Result → Option (Seq × Bytes)
  | .next t => some (t.seq, t.tx)
  | _ => none

/-! ## Well-formedness: the one check -/

theorem test_reserved_op_3_is_ill_formed : (Instr.reserved8F 3).wellFormed = false := by decide

theorem test_reserved_op_8_is_well_formed : (Instr.reserved8F 8).wellFormed = true := by decide

/-! ## Decoding: words written out from 30_encoding R70 (C, B, A, RSV, SH, OP) and R77 (R, ADDR) -/

theorem test_decode_selb :
    decodeRequest 0b00000000000000000000001000000001#32 = .selb 2 := by decide

theorem test_decode_rdr :
    decodeRequest 0b00000000000000000111010100000010#32 = .rdr 0x75 := by decide

theorem test_decode_wrr :
    decodeRequest 0b00000000000011110100111000000011#32 = .wrr 0x4E 0x0F := by decide

theorem test_decode_rmw :
    decodeRequest 0b00000111000000110101000001010100#32 = .rmw 0x07 0x50 3 5 := by decide

theorem test_decode_brd :
    decodeRequest 0b00000000000001100001111100000101#32 = .brd 0x1F 6 := by decide

theorem test_decode_cfgf :
    decodeRequest 0b00000000000000000000010000000110#32 = .cfgf 4 := by decide

theorem test_decode_rdf :
    decodeRequest 0b00110111000000000000000000000111#32 = .rdf 0x37 := by decide

theorem test_decode_reserved0 :
    decodeRequest 0b00010010001101000101011001110000#32 = .reserved0 := by decide

theorem test_decode_reserved8F :
    decodeRequest 0b00000000000000000000000000001000#32 = .reserved8F 8 := by decide

theorem test_decode_spiRead : decodeCommand 0b11110101#8 = .spiRead 0x75 := by decide

theorem test_decode_spiWrite : decodeCommand 0b01110101#8 = .spiWrite 0x75 := by decide

/-- Ignored bits: V-DEC-5, V-DEC-6, V-DEC-7, V-DEC-8. -/
theorem test_decode_ignores : decodeRequest 0x00007582#32 = .rdr 0x75 ∧
    decodeRequest 0xFFFF0201#32 = .selb 2 ∧ decodeRequest 0xC5000007#32 = .rdf 0x05 ∧
    decodeRequest 0x00007572#32 = .rdr 0x75 := by decide

/-- The examples of R83. -/
theorem test_assemble : assemble (.rmw 0x07 0x50 3 5) = some 0x07035054#32 ∧
    assemble (.rdf (fieldNames [.accel, .temp])) = some 0x05000007#32 ∧
    assemble (.brd 0x1F 256) = none ∧ assemble (.rmw 0 0 0 8) = none := by decide

/-- The source's axis example (95 L1.4). -/
theorem test_samples : samples [0x12, 0x34, 0x56, 0x78, 0x9A, 0xBC] =
    some (0x1234, 0x5678, 0x9ABC) := by decide

/-- P5 of 95, at the requester: after a CommsFailure the next request is not presented. -/
theorem test_failure_is_not_ok : answeredOk (idle 0 [] [])
    { idle 0 [] [] with pc := 1, responses := [⟨.commsFailure, .none⟩] } = false := by decide

theorem test_table_words : decodeTableWord 32 0x07035054 = some (.rmw 0x07 0x50 3 5) ∧
    decodeTableWord 8 0xF5 = some (.spiRead 0x75) ∧ decodeTableWord 8 0x70 = some (.spiWrite 0x70) ∧
    decodeTableWord 8 0x06 = some (.cfgf 0) ∧ decodeTableWord 8 0x00 = some .reserved0 ∧ decodeTableWord 33 0 = none := by decide

/-! ## Single steps (95_test_vectors L2) -/

/-- V-SELB-3: bank 5 is the first refused. -/
theorem test_selb_5_refused : seen (exec (.selb 5) (inStep 2 (.selb 5) 1)) =
    some (.respond, .high, 2, some ⟨.invalidArgument, .none⟩) := by decide

/-- V-SELB-2. -/
theorem test_selb_4_frame : sent (exec (.selb 4) (inStep 0 (.selb 4) 2)) =
    some (.xfer 2, [0x76, 0x04]) := by decide

/-- V-RDR-2: the address is masked. -/
theorem test_rdr_frame : sent (exec (.rdr 0xF5) (inStep 0 (.rdr 0xF5) 1)) =
    some (.xfer 1, [0xF5, 0x00]) := by decide

/-- V-RDR-1: the first received byte is dropped. -/
theorem test_rdr_answer :
    seen (exec (.rdr 0x75) (inFlight 0 (.rdr 0x75) 1 [0xF5, 0x00] [.ok [0x3C, 0x47]])) =
      some (.respond, .high, 0, some ⟨.ok, .byte 0x47⟩) := by decide

/-- V-WRR-2. -/
theorem test_wrr_frame : sent (exec (.wrr 0x80 0xAB) (inStep 0 (.wrr 0x80 0xAB) 1)) =
    some (.xfer 1, [0x00, 0xAB]) := by decide

/-- V-WRR-3. -/
theorem test_wrr_fails :
    seen (exec (.wrr 0x4E 0x0F) (inFlight 0 (.wrr 0x4E 0x0F) 1 [0x4E, 0x0F] [.fail])) =
      some (.respond, .high, 0, some ⟨.commsFailure, .none⟩) := by decide

/-- V-RMW-6: value bits outside the mask are set. -/
theorem test_rmw_write_frame : sent (exec (.rmw 0x01 0x50 3 0)
    { inStep 0 (.rmw 0x01 0x50 3 0) 3 with rbyte := 0xFC }) =
      some (.xfer 3, [0x50, 0xFF]) := by decide

/-- V-RMW-3, V-RMW-7: the shifted mask and value. -/
theorem test_rmw_byte : rmwByte 0xFF 0x0F 0 4 = 0x0F ∧ rmwByte 0x7F 0x07 3 7 = 0xFF := by decide

/-- V-BRD-2. -/
theorem test_brd_1_refused : seen (exec (.brd 0x1F 1) (inStep 0 (.brd 0x1F 1) 1)) =
    some (.respond, .high, 0, some ⟨.invalidArgument, .none⟩) := by decide

/-- V-BRD-3. -/
theorem test_brd_answer : seen (exec (.brd 0x1F 2)
    (inFlight 0 (.brd 0x1F 2) 2 [0x9F, 0x00, 0x00] [.ok [0xEE, 0x11, 0x22]])) =
      some (.respond, .high, 0, some ⟨.ok, .bytes [0x11, 0x22]⟩) := by decide

/-- V-CFGF-4, the mode write. -/
theorem test_cfgf_mode_write : sent (exec (.cfgf 4)
    { inStep 0 (.cfgf 4) 5 with rbyte := 0x03 }) = some (.xfer 5, [0x16, 0x43]) := by decide

/-- V-CFGF-5: `CFGF 0` is refused and leaves `FMT`. -/
theorem test_cfgf_0_refused : seen (exec (.cfgf 0) (inStep 2 (.cfgf 0) 1)) =
    some (.respond, .high, 2, some ⟨.invalidArgument, .none⟩) := by decide

/-- V-RDF-8: NotConfigured first. -/
theorem test_rdf_not_configured : seen (exec (.rdf 0) (inStep 0 (.rdf 0) 2)) =
    some (.respond, .high, 0, some ⟨.notConfigured, .none⟩) := by decide

/-- The rx list of V-RDF-4 with the bytes of P7. -/
def burst4 : Bytes :=
  [0xEE, 0x80, 0x81, 0x82, 0x83, 0x84, 0x85, 0x86, 0x87, 0x88, 0x89, 0x8A, 0x8B, 0x8C, 0x8D, 0x8E,
    0x8F, 0x90, 0x91, 0x92, 0x93]

/-- V-RDF-4: the format-4 layout. -/
theorem test_rdf_format_4 : seen (exec (.rdf 0x37) { inStep 4 (.rdf 0x37) 5 with
    rxlen := 21, rxbuf := fill burst4 (Vector.replicate 256 0xA5) }) =
    some (.respond, .high, 4, some ⟨.ok, .fields
      ⟨some [0x81, 0x82, 0x83, 0x84, 0x85, 0x86], some [0x87, 0x88, 0x89, 0x8A, 0x8B, 0x8C],
        some [0x8D, 0x8E], none, some [0x8F, 0x90], some [0x91, 0x92, 0x93]⟩⟩) := by decide

/-- V-DEC-1. -/
theorem test_reserved0_refused : seen (exec .reserved0 (inStep 3 .reserved0 1)) =
    some (.respond, .high, 3, some ⟨.invalidArgument, .none⟩) := by decide

/-- V-DEC-3. -/
theorem test_reserved8F_refused : seen (exec (.reserved8F 0xF) (inStep 3 (.reserved8F 0xF) 1)) =
    some (.respond, .high, 3, some ⟨.invalidArgument, .none⟩) := by decide

/-- V-RMW-9 seen as the frame in flight: a failed read, no write. -/
theorem test_spiRead_fails : seen (exec (.spiRead 0x50)
    (inFlight 1 (.rmw 0x07 0x50 3 5) 1 [0xD0, 0x00] [.fail])) =
      some (.respond, .high, 1, some ⟨.commsFailure, .none⟩) := by decide

/-- V-SELB-2 seen as the frame in flight. -/
theorem test_spiWrite_ok : seen (exec (.spiWrite 0x76)
    (inFlight 0 (.selb 4) 2 [0x76, 0x04] [.ok [0x00, 0x00]])) =
      some (.respond, .high, 0, some ⟨.ok, .none⟩) := by decide

/-- 60 R170: no answer, no step. -/
theorem test_no_answer_waits : step (inFlight 0 (.rdr 0x75) 1 [0xF5, 0x00] []) =
    .next (inFlight 0 (.rdr 0x75) 1 [0xF5, 0x00] []) := rfl

/-- The host's placement of a frame. -/
theorem test_placed_frame : (State.reset.withFetchWord 8 0xF5).tx = [0xF5, 0x00] ∧
    (State.reset.withFetchWord 8 0xF5).req = some (.rdr 0x75) := ⟨rfl, rfl⟩

/-! ## Witnesses: states that meet the hypotheses of the statements -/

/-- An `IDLE` RAC is legal, whatever its program and answers. -/
theorem idle_inv (ws : List ReqWord) (l : List Answer) : Inv (idle 0 ws l) :=
  ⟨(by decide : (0 : Format) ≤ 4#3), ⟨fun h => (by cases h), fun h => (by cases h)⟩, rfl, rfl, rfl,
    Nat.zero_le _, Nat.zero_le _, .inl rfl⟩

/-- The read frame of `RDR 0x75` in flight is legal, whatever the answers. -/
theorem inFlight_inv (l : List Answer) : Inv (inFlight 0 (.rdr 0x75) 1 [0xF5, 0x00] l) :=
  ⟨(by decide : (0 : Format) ≤ 4#3), ⟨fun _ => rfl, fun _ => rfl⟩, rfl, rfl, rfl,
    (by decide : 2 ≤ 256), Nat.zero_le _, .inr rfl⟩

/-- The write frame of `SELB 4` in flight is legal, whatever the answers. -/
theorem inFlight_write_inv (l : List Answer) : Inv (inFlight 0 (.selb 4) 2 [0x76, 0x04] l) :=
  ⟨(by decide : (0 : Format) ≤ 4#3), ⟨fun _ => rfl, fun _ => rfl⟩, rfl, rfl,
    (by decide : placed (inFlight 0 (.selb 4) 2 [0x76, 0x04] []) = true),
    (by decide : 2 ≤ 256), Nat.zero_le _, .inr rfl⟩

theorem witness_StepKeepsTheInvariant : ∃ t, Inv (idle 0 [0x00007502] []) ∧
    step (idle 0 [0x00007502] []) = .next t ∧ t.seq = .step 1 :=
  ⟨_, idle_inv _ _, rfl, rfl⟩

theorem witness_LegalStatesAlwaysStep :
    Inv (inFlight 0 (.rdr 0x75) 1 [0xF5, 0x00] [.ok [0, 1]]) ∧
      inXfer (inFlight 0 (.rdr 0x75) 1 [0xF5, 0x00] [.ok [0, 1]]) = true ∧
      answerLegal (inFlight 0 (.rdr 0x75) 1 [0xF5, 0x00] [.ok [0, 1]]) = true :=
  ⟨inFlight_inv _, rfl, by decide⟩

theorem witness_StepRunsTheDecodedInstruction_idle : (Instr.rdr 0x75).wellFormed = true ∧
    (idle 0 [0x00007502] []).seq = .idle ∧ (idle 0 [0x00007502] []).program[0]? = some 0x00007502 ∧
    decode (.request 0x00007502) = .rdr 0x75 := by decide

theorem witness_StepRunsTheDecodedInstruction_step : (Instr.rdr 0x75).wellFormed = true ∧
    (inStep 0 (.rdr 0x75) 1).seq = .step 1 ∧ (inStep 0 (.rdr 0x75) 1).req = some (.rdr 0x75) := by
  decide

theorem witness_StepRunsTheDecodedInstruction_xfer : (Instr.spiRead 0x75).wellFormed = true ∧
    (inFlight 0 (.rdr 0x75) 1 [0xF5, 0x00] []).seq = .xfer 1 ∧
    (inFlight 0 (.rdr 0x75) 1 [0xF5, 0x00] []).tx = 0xF5 :: [0x00] ∧
    decode (.command 0xF5) = .spiRead 0x75 := by decide

theorem witness_StepRunsTheDecodedInstruction_respond : (answering ⟨.ok, .none⟩).seq = .respond := by
  decide

theorem witness_ChipSelectLowExactlyInXfer : ∃ t,
    ((inStep 0 (.rdr 0x75) 1).cs = .low ↔ ∃ k, (inStep 0 (.rdr 0x75) 1).seq = .xfer k) ∧
      step (inStep 0 (.rdr 0x75) 1) = .next t ∧ t.cs = .low :=
  ⟨_, ⟨fun h => (by cases h), fun ⟨_, h⟩ => (by cases h)⟩, rfl, rfl⟩

theorem witness_FmtIsWrittenOnlyByCfgf : ∃ t, step (inStep 0 (.cfgf 3) 7) = .next t ∧
    t.fmt ≠ (inStep 0 (.cfgf 3) 7).fmt := ⟨_, rfl, by decide⟩

theorem witness_TakingTheResponseAdvancesPc : ∃ t, step (answering ⟨.ok, .none⟩) = .next t ∧
    (answering ⟨.ok, .none⟩).seq = .respond := ⟨_, rfl, rfl⟩

theorem witness_TakingTheResponseAdvancesPc_other : ∃ t, step (inStep 0 (.selb 5) 1) = .next t ∧
    (inStep 0 (.selb 5) 1).seq ≠ .respond := ⟨_, rfl, by decide⟩

theorem witness_TransactionsAreTotallyOrdered : ∃ t,
    step (inFlight 0 (.rdr 0x75) 1 [0xF5, 0x00] [.ok [0, 1]]) = .next t ∧ t.trace ≠ [] :=
  ⟨_, rfl, by decide⟩

theorem witness_UnansweredTransactionHangs :
    Inv (inFlight 0 (.rdr 0x75) 1 [0xF5, 0x00] []) ∧
      (inFlight 0 (.rdr 0x75) 1 [0xF5, 0x00] []).seq = .xfer 1 ∧
      (inFlight 0 (.rdr 0x75) 1 [0xF5, 0x00] []).answers = [] := ⟨inFlight_inv _, rfl, rfl⟩

/-- The longest frame: BRD of 255 bytes. -/
theorem witness_PresentedFramesHave2To256Bytes : ∃ t, Inv (inStep 0 (.brd 0x1F 255) 2) ∧
    step (inStep 0 (.brd 0x1F 255) 2) = .next t ∧ inXfer t = true :=
  ⟨_, ⟨by decide, by decide, by decide, by decide, by decide, by decide, by decide, by decide⟩, rfl, rfl⟩

theorem witness_NewResponsesAreLegal : ∃ t r, step (inStep 0 (.selb 5) 1) = .next t ∧
    (inStep 0 (.selb 5) 1).seq ≠ .respond ∧ t.resp = some r ∧ t.seq = .respond ∧
    r.status ≠ .ok := ⟨_, _, rfl, by decide, rfl, rfl, by decide⟩

theorem witness_FailedTransactionEndsItsRequest :
    Inv (inFlight 0 (.rdr 0x75) 1 [0xF5, 0x00] [.fail]) ∧
      inXfer (inFlight 0 (.rdr 0x75) 1 [0xF5, 0x00] [.fail]) = true ∧
      (inFlight 0 (.rdr 0x75) 1 [0xF5, 0x00] [.fail]).answers = [.fail] :=
  ⟨inFlight_inv _, rfl, rfl⟩

theorem witness_BusyPortTakesNothing : ∃ t, (inStep 0 (.rdr 0x75) 1).seq ≠ .idle ∧
    step (inStep 0 (.rdr 0x75) 1) = .next t := ⟨_, by decide, rfl⟩

theorem witness_PastIsNotRemembered : ∃ t,
    step { answering ⟨.ok, .none⟩ with responses := [⟨.commsFailure, .none⟩] } = .next t := ⟨_, rfl⟩

theorem idle_for_ever (s : State) (h : step s = .next s) (n : Nat) :
    Host.Core.run Sys2Proof.core n s = .next s := by
  induction n with
  | zero => rfl
  | succ n ih => rw [run_succ h, ih]

/-- `RDR 0x75` whose one transaction is answered: the environment keeps its law on the whole run. -/
theorem witness_EveryRequestIsAnswered :
    Inv (idle 0 [0x00007502] [.ok [0x3C, 0x47]]) ∧
      (idle 0 [0x00007502] [.ok [0x3C, 0x47]]).seq = .idle ∧
      (idle 0 [0x00007502] [.ok [0x3C, 0x47]]).program[0]? = some 0x00007502 ∧
      ∀ n u, Host.Core.run Sys2Proof.core n (idle 0 [0x00007502] [.ok [0x3C, 0x47]]) = .next u →
        u.pc = (idle 0 [0x00007502] [.ok [0x3C, 0x47]]).pc → inXfer u = true →
        answerLegal u = true ∧ u.answers ≠ [] := by
  refine ⟨idle_inv _ _, rfl, rfl, fun n u h hpc hx => ?_⟩
  match n with
  | 0 => injection h with h; subst h; cases hx
  | 1 => injection h with h; subst h; cases hx
  | 2 => injection h with h; subst h; exact ⟨by decide, by decide⟩
  | 3 => injection h with h; subst h; cases hx
  | n + 4 =>
    obtain ⟨v, hv, hw, hp⟩ : ∃ v, (∀ n, Host.Core.run Sys2Proof.core (n + 4)
        (idle 0 [0x00007502] [.ok [0x3C, 0x47]]) = Host.Core.run Sys2Proof.core n v) ∧
        step v = .next v ∧ v.pc = 1 := ⟨_, fun _ => rfl, rfl, rfl⟩
    rw [hv, idle_for_ever v hw] at h
    injection h with h
    subst h
    rw [hp] at hpc
    cases hpc

/-- Two buffers that differ past the list: 2 bytes are held of 256. -/
theorem witness_BytesPastTheListsAreNotRead : ∃ t,
    step (inFlight 0 (.rdr 0x75) 1 [0xF5, 0x00] [.ok [0, 1]]) = .next t ∧
      (fill [0xF5, 0x00] (Vector.replicate 256 0x5A)).toList.take 2 =
        (inFlight 0 (.rdr 0x75) 1 [0xF5, 0x00] [.ok [0, 1]]).tx ∧
      (Vector.replicate 256 0x5A : Buffer).toList.take 0 =
        (inFlight 0 (.rdr 0x75) 1 [0xF5, 0x00] [.ok [0, 1]]).rx := ⟨_, rfl, by decide, rfl⟩

theorem witness_ExecFrame : ∃ t, exec (.cfgf 3) (inStep 0 (.cfgf 3) 7) = .next t := ⟨_, rfl⟩

theorem witness_RegisterAccessRequestsWriteNoFmt :
    (∃ t, exec (.selb 5) (inStep 0 (.selb 5) 1) = .next t ∧ t.seq = .respond) ∧
    (∃ t, exec (.rdr 1) (inStep 0 (.rdr 1) 1) = .next t) ∧
    (∃ t, exec (.wrr 1 2) (inStep 0 (.wrr 1 2) 1) = .next t) ∧
    (∃ t, exec (.rmw 1 2 3 4) (inStep 0 (.rmw 1 2 3 4) 3) = .next t) ∧
    (∃ t, exec (.brd 1 1) (inStep 0 (.brd 1 1) 1) = .next t ∧ t.seq = .respond) :=
  ⟨⟨_, rfl, rfl⟩, ⟨_, rfl⟩, ⟨_, rfl⟩, ⟨_, rfl⟩, ⟨_, rfl, rfl⟩⟩

theorem witness_DecodeInvertsEncode : (Instr.reserved8F 8).wellFormed = true ∧
    (Instr.rmw 0xFF 0xFF 0xFF 7).wellFormed = true := by decide

theorem witness_IgnoredBitsHaveNoEffect :
    (fieldOP 0xC5000007 = fieldOP 0x05000007 ∧ (fieldOP 0xC5000007).toNat = 7 ∧
      (fieldC 0xC5000007).extractLsb' 0 6 = (fieldC 0x05000007).extractLsb' 0 6) ∧
    (fieldOP 0x070350D4 = fieldOP 0x07035054 ∧ (fieldOP 0x070350D4).toNat = 4 ∧
      fieldA 0x070350D4 = fieldA 0x07035054 ∧ fieldB 0x070350D4 = fieldB 0x07035054 ∧
      fieldC 0x070350D4 = fieldC 0x07035054 ∧ fieldSH 0x070350D4 = fieldSH 0x07035054) ∧
    assemble (.rdf 0xFF) = some 0x3F000007 := by decide

/-- The words that the encoding clauses of the request statements speak of. -/
theorem witness_encoding_clauses : fieldOP 0x00000201 = 0x1 ∧ fieldOP 0x00007502 = 0x2 ∧
    fieldOP 0x000F4E03 = 0x3 ∧ fieldOP 0x07035054 = 0x4 ∧ fieldOP 0x00061F05 = 0x5 ∧
    fieldOP 0x00000106 = 0x6 ∧ fieldOP 0x05000007 = 0x7 := by decide

theorem witness_CommandByteLayout : (0x7F#8 : Byte) < 0x80#8 ∧ 0x80#8 ≤ (0x80#8 : Byte) := by decide

theorem witness_SelbSelectsTheBank_refused : (idle 0 [] []).seq = .idle ∧ 4#8 < 5#8 := by decide

theorem witness_SelbSelectsTheBank : (idle 0 [] [.ok [0, 0]]).seq = .idle ∧ 4#8 ≤ 4#8 ∧
    (idle 0 [] [.ok [0, 0]]).answers = .ok [0, 0] :: [] ∧ answerFits (.ok [0, 0]) 2 :=
  ⟨rfl, by decide, rfl, rfl⟩

theorem witness_RdrReadsOneByte : (idle 0 [] [.fail]).seq = .idle ∧
    (idle 0 [] [.fail]).answers = .fail :: [] ∧ answerFits .fail 2 := ⟨rfl, rfl, trivial⟩

theorem witness_WrrWritesOneByte : (idle 0 [] [.ok [7, 7]]).seq = .idle ∧
    (idle 0 [] [.ok [7, 7]]).answers = .ok [7, 7] :: [] ∧ answerFits (.ok [7, 7]) 2 :=
  ⟨rfl, rfl, rfl⟩

theorem witness_RmwReadsThenWrites_failed : (idle 0 [] [.fail]).seq = .idle ∧
    (idle 0 [] [.fail]).answers = .fail :: [] := ⟨rfl, rfl⟩

theorem witness_RmwReadsThenWrites : (idle 0 [] [.ok [0, 6], .fail]).seq = .idle ∧
    (idle 0 [] [.ok [0, 6], .fail]).answers = .ok [0, 6] :: .fail :: [] ∧ answerFits .fail 2 :=
  ⟨rfl, rfl, trivial⟩

theorem witness_RmwPreservationLaw : (inStep 0 (.rmw 0x07 0x50 3 5) 3).seq = .step 3 ∧
    (inStep 0 (.rmw 0x07 0x50 3 5) 3).req = some (.rmw 0x07 0x50 3 5) ∧
    ((3#8 <<< 5) &&& ~~~(0x07#8 <<< 5) : Byte) = 0 := by decide

theorem witness_BrdReadsCountBytes_refused : (idle 0 [] []).seq = .idle ∧ 1#8 < 2#8 := by decide

theorem witness_BrdReadsCountBytes : (idle 0 [] [.ok [0, 1, 2]]).seq = .idle ∧ 2#8 ≤ 2#8 ∧
    (idle 0 [] [.ok [0, 1, 2]]).answers = .ok [0, 1, 2] :: [] ∧
    answerFits (.ok [0, 1, 2]) ((2#8).toNat + 1) := ⟨rfl, by decide, rfl, rfl⟩

theorem witness_ReservedOpcodesAreRefused : fieldOP 0x12345670 = 0 ∧ 8#4 ≤ fieldOP 0x00000008 ∧
    (idle 0 [] []).seq = .idle := by decide

theorem witness_CfgfRefusesOtherFormats : (idle 0 [] []).seq = .idle ∧
    ¬(1 ≤ (0#8).toNat ∧ (0#8).toNat ≤ 4) ∧ ¬(1 ≤ (5#8).toNat ∧ (5#8).toNat ≤ 4) ∧
    (1 ≤ (1#8).toNat ∧ (1#8).toNat ≤ 4) ∧ (1 ≤ (4#8).toNat ∧ (4#8).toNat ≤ 4) := by decide

theorem witness_CfgfConfiguresTheFifo :
    (idle 0 [] [.ok [0, 0], .ok [0, 3], .ok [0, 0], .ok [0, 0]]).seq = .idle ∧
      (4#8 = 4 ∧ (0x1F#8 : Byte) = (idle 0 [] []).cfg.fifoPattern4) ∧
      (idle 0 [] [.ok [0, 0], .ok [0, 3], .ok [0, 0], .ok [0, 0]]).answers =
        .ok [0, 0] :: .ok [0, 3] :: .ok [0, 0] :: .ok [0, 0] :: [] ∧
      [(0 : Byte), 0].length = 2 := by decide

theorem witness_CfgfFailureKeepsFmt :
    (inFlight 2 (.cfgf 3) 6 [0x5F, 0x0F] [.fail]).req = some (.cfgf 3) ∧
      (inFlight 2 (.cfgf 3) 6 [0x5F, 0x0F] [.fail]).seq = .xfer 6 ∧
      (inFlight 2 (.cfgf 3) 6 [0x5F, 0x0F] [.fail]).answers = .fail :: [] := by decide

theorem witness_PacketLayout : fifoLen 4 = some 20 ∧ requiredFields 4 = some 0x37 ∧
    1 ≤ 19 ∧ 19 < 20 := by decide

theorem witness_RdfReturnsThePacketsFields :
    (idle 1 [] [.ok [0, 0], .ok [0, 0xAA, 1, 2, 3, 4, 5, 6, 0x77]]).seq = .idle ∧
      fifoLen 1 = some 8 ∧ requiredFields 1 = some 0x05 ∧ (0x3F#6 : Presence) &&& 0x05 = 0x05 ∧
      (idle 1 [] [.ok [0, 0], .ok [0, 0xAA, 1, 2, 3, 4, 5, 6, 0x77]]).answers =
        .ok [0, 0] :: .ok (0 :: [0xAA, 1, 2, 3, 4, 5, 6, 0x77]) :: [] ∧
      [(0xAA : Byte), 1, 2, 3, 4, 5, 6, 0x77].length = 8 := by decide

theorem witness_RdfChecksBeforeTheBurst_not_configured : (idle 0 [] [.ok [0, 0]]).seq = .idle ∧
    (idle 0 [] [.ok [0, 0]]).answers = .ok [0, 0] :: [] ∧ (idle 0 [] [.ok [0, 0]]).fmt = 0 := by
  decide

theorem witness_RdfChecksBeforeTheBurst_missing : (idle 4 [] [.ok [0, 0]]).seq = .idle ∧
    (idle 4 [] [.ok [0, 0]]).answers = .ok [0, 0] :: [] ∧
    requiredFields (idle 4 [] [.ok [0, 0]]).fmt = some 0x37 ∧
    (0x17#6 : Presence) &&& 0x37 ≠ 0x37 := by decide

theorem witness_RdfTransportFailures : (idle 0 [] [.fail]).seq = .idle ∧
    (idle 0 [] [.fail]).answers = .fail :: [] := by decide

theorem witness_RdfTransportFailures_burst : (idle 1 [] [.ok [0, 0], .fail]).seq = .idle ∧
    (idle 1 [] [.ok [0, 0], .fail]).answers = .ok [0, 0] :: .fail :: [] ∧
    fifoLen (idle 1 [] []).fmt = some 8 ∧ requiredFields (idle 1 [] []).fmt = some 0x05 ∧
    (0x05#6 : Presence) &&& 0x05 = 0x05 := by decide

theorem witness_ReadFrameRuns : Inv (inFlight 0 (.rdr 0x75) 1 [0xF5, 0x00] [.ok [0, 1]]) ∧
    (inFlight 0 (.rdr 0x75) 1 [0xF5, 0x00] [.ok [0, 1]]).tx =
      (0x80#8 ||| (0x75#7).setWidth 8) :: [0x00] ∧ answerFits (.ok [0, 1]) 2 :=
  ⟨inFlight_inv _, by decide, rfl⟩

theorem witness_WriteFrameRuns : Inv (inFlight 0 (.selb 4) 2 [0x76, 0x04] [.ok [0, 0]]) ∧
    (inFlight 0 (.selb 4) 2 [0x76, 0x04] [.ok [0, 0]]).tx = (0x76#7).setWidth 8 :: [0x04] ∧
    answerFits (.ok [0, 0]) 2 := ⟨inFlight_write_inv _, by decide, rfl⟩

theorem witness_FrameAndRequestAgree : (Instr.selb 4).isRequest = true ∧
    (inFlight 0 (.selb 4) 2 [0x76, 0x04] []).seq = .xfer 2 ∧
    (inFlight 0 (.selb 4) 2 [0x76, 0x04] []).req = some (.selb 4) ∧
    (inFlight 0 (.selb 4) 2 [0x76, 0x04] []).tx.head? = some ((0x76#7).setWidth 8) ∧
    (inFlight 0 (.rdr 0x75) 1 [0xF5, 0x00] []).tx.head? =
      some (0x80#8 ||| (0x75#7).setWidth 8) := by decide

theorem witness_BusTellsTheDeviceBank_selb : (idle 0 [] [.ok [0, 0]]).seq = .idle ∧ 4#8 ≤ 4#8 ∧
    (idle 0 [] [.ok [0, 0]]).answers = .ok [0, 0] :: [] ∧ answerFits (.ok [0, 0]) 2 :=
  ⟨rfl, by decide, rfl, rfl⟩

/-- A WRR of 5 at the bank-select register: no bank has that number. -/
theorem witness_BusTellsTheDeviceBank_write : ∃ t,
    exec (.wrr 0x76 5) (inFlight 0 (.wrr 0x76 5) 1 [0x76, 0x05] [.ok [0, 0]]) = .next t ∧
      (inFlight 0 (.wrr 0x76 5) 1 [0x76, 0x05] [.ok [0, 0]]).tx =
        [tc.bankSelAddr.setWidth 8, 5] := ⟨_, rfl, by decide⟩

/-- The soft-reset writes of a device that has them at 0x11 of bank 0, in bit 0: values of the tests. -/
def resetsAt11 : SoftReset := fun bank a d => decide (bank = 0) && decide (a = 0x11) && d.getLsbD 0

theorem witness_BusTellsTheDeviceBank_other : ∃ t,
    exec (.wrr 0x4E 0x0F) (inFlight 0 (.wrr 0x4E 0x0F) 1 [0x4E, 0x0F] [.ok [0, 0]]) = .next t ∧
      (inFlight 0 (.wrr 0x4E 0x0F) 1 [0x4E, 0x0F] [.ok [0, 0]]).tx.head? ≠
        some (tc.bankSelAddr.setWidth 8) ∧ resetsAt11 0 0x4E 0x0F = false :=
  ⟨_, rfl, by decide, by decide⟩

theorem witness_BusTellsTheDeviceBank_soft_reset : ∃ t,
    exec (.wrr 0x11 1) { inFlight 0 (.wrr 0x11 1) 1 [0x11, 0x01] [.ok [0, 0]] with
      trace := [⟨[0x76, 0x00], .ok [0, 0]⟩] } = .next t ∧
      ([0x11, 0x01] : Bytes) = [(0x11#7).setWidth 8, 1] ∧ (0x11#7 : Addr) ≠ tc.bankSelAddr ∧
      deviceBank tc resetsAt11 [⟨[0x76, 0x00], .ok [0, 0]⟩] = .known 0 ∧
      resetsAt11 0 0x11 1 = true := ⟨_, rfl, by decide, by decide, by decide, by decide⟩

theorem witness_PseudoStopsAtTheFirstFailure : (idle 0 [] [.fail]).seq = .idle ∧
    assembleAll (expand (.setfs 0x50 3)) = some [0x00000001, 0x07035054] ∧
    (idle 0 [] [.fail]).answers = .fail :: [] := by decide

theorem witness_PseudoRunsItsRequests_rmw :
    (idle 0 [] [.ok [0, 0], .ok [0, 0x06], .ok [0, 0]]).seq = .idle ∧
      [(0 : Byte), 0].length = 2 ∧ 0x50 < 256 ∧ 255 < 256 ∧
      (idle 0 [] [.ok [0, 0], .ok [0, 0x06], .ok [0, 0]]).answers =
        .ok [0, 0] :: .ok [0, 0x06] :: .ok [0, 0] :: [] := by decide

theorem witness_PseudoRunsItsRequests_read :
    (idle 0 [] [.ok [0, 0], .ok [0, 0x12, 0x34, 0x56, 0x78, 0x9A, 0xBC]]).answers =
      .ok [0, 0] :: .ok (0 :: [0x12, 0x34, 0x56, 0x78, 0x9A, 0xBC]) :: [] ∧
      [(0x12 : Byte), 0x34, 0x56, 0x78, 0x9A, 0xBC].length = 6 ∧
      (idle 0 [] [.ok [0, 0], .ok [0, 0x47]]).answers = .ok [0, 0] :: .ok [0, 0x47] :: [] := by
  decide

end Sys2Proof.Machine.Tests
end

section
/-! Every legal state steps, a step observes at most one transaction, and the frame on the transport port
runs (00_scope R10, 30_encoding R75, R76, 40_register_access R90): O4, O11, O43, O44. -/

namespace Sys2Proof.Machine

variable {s t : State} {i : Instr} {k : Nat}

/-! ## Steps without a transaction -/

/-- A check answers a next state whether it passes or not. -/
theorem ite_next {c : Prop} [Decidable c] (u v : State) :
    ∃ t, (if c then .next u else .next v : Result) = .next t := by
  split <;> exact ⟨_, rfl⟩

/-- Every step of CFGF has a next state once the format check has passed (45 R132, R133). -/
theorem cfgfSteps_next {format : Byte} (hk : stepReached s.fmt (.cfgf format) k = true) :
    ∃ t, cfgfSteps format k s = .next t := by
  obtain rfl | ⟨⟨hk2, hk7⟩, hc⟩ : k = 1 ∨ (2 ≤ k ∧ k ≤ 7) ∧ formatRefused format = false := by
    simpa [stepReached] using hk
  · exact ite_next _ _
  · obtain rfl | rfl | rfl | rfl | rfl | rfl : k = 6 ∨ k = 2 ∨ k = 3 ∨ k = 4 ∨ k = 5 ∨ k = 7 := by
      omega
    · obtain ⟨p, hp⟩ := fifoPattern_some s.cfg hc
      simp [cfgfSteps, hp]
    all_goals exact ⟨_, rfl⟩

/-- Every step of RDF that its checks let it reach has a next state (45 R142 to R144): `FMT` has a packet
layout from step 3 on. -/
theorem rdfSteps_next {fields : Presence} (hf : s.fmt ≤ 4#3)
    (hk : stepReached s.fmt (.rdf fields) k = true) : ∃ t, rdfSteps fields k s = .next t := by
  simp only [stepReached, Bool.or_eq_true, Bool.and_eq_true, decide_eq_true_eq] at hk
  obtain ((rfl | rfl) | ⟨rfl, h0⟩) | ⟨rfl | rfl, hq⟩ := hk
  · exact ⟨_, rfl⟩
  · exact ite_next _ _
  · obtain ⟨-, req, -, hreq, -⟩ := layout_some hf h0
    simp only [rdfSteps, hreq]
    exact ite_next _ _
  · obtain ⟨req, hreq, -⟩ := (Option.any_eq_true _ _).1 hq
    obtain ⟨len, hlen⟩ := fifoLen_of_requiredFields hreq
    simp [rdfSteps, hlen]
  · exact ⟨_, rfl⟩

/-- The request in progress runs every step it can have reached. -/
theorem exec_step_next (hf : s.fmt ≤ 4#3) (h : s.seq = .step k) (hr : s.req = some i)
    (hk : stepReached s.fmt i k = true) : ∃ t, exec i s = .next t := by
  cases i with
  | selb bank =>
    rw [selb_step bank h hr]
    obtain rfl | ⟨rfl, -⟩ : k = 1 ∨ k = 2 ∧ bankRefused bank = false := by
      simpa [stepReached] using hk
    · exact ite_next _ _
    · exact ⟨_, rfl⟩
  | rdr addr =>
    obtain rfl : k = 1 := by simpa [stepReached] using hk
    exact ⟨_, rdr_step addr h hr⟩
  | wrr addr data =>
    obtain rfl : k = 1 := by simpa [stepReached] using hk
    exact ⟨_, wrr_step addr data h hr⟩
  | rmw mask addr value shift =>
    rw [rmw_step mask addr value shift h hr]
    obtain (rfl | rfl) | rfl : (k = 1 ∨ k = 2) ∨ k = 3 := by simpa [stepReached] using hk
    all_goals exact ⟨_, rfl⟩
  | brd addr count =>
    rw [brd_step addr count h hr]
    obtain rfl | ⟨rfl, -⟩ : k = 1 ∨ k = 2 ∧ countRefused count = false := by
      simpa [stepReached] using hk
    · exact ite_next _ _
    · exact ⟨_, rfl⟩
  | cfgf format =>
    rw [cfgf_step format h hr]
    exact cfgfSteps_next hk
  | rdf fields =>
    rw [rdf_step fields h hr]
    exact rdfSteps_next hf hk
  | reserved0 =>
    obtain rfl : k = 1 := by simpa [stepReached] using hk
    exact ⟨_, reserved0_step h hr⟩
  | reserved8F op =>
    obtain rfl : k = 1 := by simpa [stepReached] using hk
    exact ⟨_, reserved8F_step op h hr⟩
  | spiRead a => cases hk
  | spiWrite a => cases hk

/-! ## Every legal state steps -/

/-- In a legal state a transaction step goes on, whatever the legal answer, or waits for one. -/
theorem Inv.xfer_next (hi : Inv s) (h : s.seq = .xfer k) (hl : answerLegal s = true) :
    ∃ t, step s = .next t := by
  obtain ⟨i, c, -, hstep, -, -, hf⟩ := hi.step_xfer h
  rw [hstep]
  match ha : s.answers with
  | [] => exact ⟨_, exchange_silent ha⟩
  | .fail :: _ => exact ⟨_, exchange_fail ha⟩
  | .ok rx :: _ =>
    have hlen : rx.length = s.tx.length := by simpa [answerLegal, ha] using hl
    rw [exchange_ok ha hlen]
    exact answered_next (hlen ▸ hf) _

/-- Settles O4, by the place of the sequencer. -/
theorem legalStatesAlwaysStep : Obligations.LegalStatesAlwaysStep := by
  intro s hi hl
  cases h : s.seq with
  | idle =>
    cases hw : s.program[s.pc]? with
    | none => exact ⟨_, step_wait h hw⟩
    | some w => exact ⟨_, (step_idle h hw).trans (exec_idle (decodeRequest_isRequest w) h)⟩
  | step k =>
    obtain ⟨i, hr, hk, -⟩ := hi.of_step h
    rw [step_step h hr]
    exact exec_step_next hi.fmt_legal h hr hk
  | xfer k => exact hi.xfer_next h (hl (by simp [inXfer, h]))
  | respond =>
    have hheld : s.resp.isSome = true := by simp [hi.resp_held, inRespond, h]
    obtain ⟨r, hr⟩ := Option.isSome_iff_exists.1 hheld
    exact ⟨_, step_taken h hr⟩

/-! ## What a move observes -/

/-- A move leaves the observed transactions and the answers to come as they are, unless it is made in
`XFER(k)` and an answer has come. -/
theorem Move.quiet_or_answered (m : Move i s t) :
    (t.trace = s.trace ∧ t.answers = s.answers) ∨
      ∃ k o rest, s.seq = .xfer k ∧ s.answers = o :: rest := by
  cases m with
  | fail h ha | resume h ha | latch _ _ h _ _ ha | finish _ h ha => exact .inr ⟨_, _, _, h, ha⟩
  | _ => exact .inl ⟨rfl, rfl⟩

/-- A move in `XFER(k)` with an answer to come uses that answer: the bracket is closed, the transaction on
the port observed, `FMT` and the session unchanged (00_scope R10). -/
theorem Move.uses_answer {o : Answer} {rest : List Answer} (m : Move i s t) (h : s.seq = .xfer k)
    (ha : s.answers = o :: rest) :
    t.cs = .high ∧ t.trace = s.trace ++ [⟨s.tx, o⟩] ∧ t.answers = rest ∧ t.fmt = s.fmt ∧
      keepsSession s t := by
  cases m with
  | fail _ ha' | resume _ ha' | latch _ _ _ _ _ ha' | finish _ _ ha' =>
    obtain ⟨rfl, rfl⟩ := List.cons.inj (ha.symm.trans ha')
    simp [keepsSession, ha]
  | silent _ ha' => cases ha.symm.trans ha'
  | _ => simp_all -- every other move starts outside `XFER(k)`

/-- Settles O11, by what the step can be. -/
theorem transactionsAreTotallyOrdered : Obligations.TransactionsAreTotallyOrdered := by
  intro s t hn
  obtain ⟨i, -, he⟩ | ⟨-, -, rfl⟩ | ⟨-, hn⟩ := step_cases hn
  · have m := exec_move he
    refine m.quiet_or_answered.imp_right ?_
    rintro ⟨k, o, rest, h, ha⟩
    obtain ⟨hcs, htr, hans, -⟩ := m.uses_answer h ha
    exact ⟨k, o, rest, h, ha, hans, htr, hcs⟩
  · exact .inl ⟨rfl, rfl⟩
  · obtain ⟨r, -, rfl⟩ := takeResponse_cases hn
    exact .inl ⟨rfl, rfl⟩

/-! ## The frames of the requests -/

theorem commandByte_inj {r q : Bool} {a b : Addr} (h : commandByte r a = commandByte q b) :
    r = q ∧ a = b := by
  have hd := congrArg decodeCommand h
  simp only [decodeCommand_commandByte] at hd
  cases r <;> cases q <;> simp_all

/-- `stepFrame` as a relation: step `k` of request `i` presents a frame that reads or not, at an address, of
`n` bytes. -/
inductive PresentsFrame (p : Params) (f : Format) : Instr → Nat → Bool → Addr → Nat → Prop where
  | selb (bank) : PresentsFrame p f (.selb bank) 2 false p.bankSelAddr 2
  | rdr (addr) : PresentsFrame p f (.rdr addr) 1 true (deviceAddr addr) 2
  | wrr (addr data) : PresentsFrame p f (.wrr addr data) 1 false (deviceAddr addr) 2
  | rmwRead (m addr v sh) : PresentsFrame p f (.rmw m addr v sh) 1 true (deviceAddr addr) 2
  | rmwWrite (m addr v sh) : PresentsFrame p f (.rmw m addr v sh) 3 false (deviceAddr addr) 2
  | brd (addr count) : PresentsFrame p f (.brd addr count) 2 true (deviceAddr addr) (count.toNat + 1)
  | cfgfBank (x) : PresentsFrame p f (.cfgf x) 2 false p.bankSelAddr 2
  | cfgfModeRead (x) : PresentsFrame p f (.cfgf x) 3 true p.fifoModeAddr 2
  | cfgfModeWrite (x) : PresentsFrame p f (.cfgf x) 5 false p.fifoModeAddr 2
  | cfgfPattern (x) : PresentsFrame p f (.cfgf x) 6 false p.fifoFmtAddr 2
  | rdfBank (x) : PresentsFrame p f (.rdf x) 1 false p.bankSelAddr 2
  | rdfBurst (x) {len} (h : fifoLen f = some len) :
      PresentsFrame p f (.rdf x) 4 true p.fifoDataAddr (len + 1)

section
variable {p : Params} {f : Format} {n : Nat} {a : Addr}

theorem presentsFrame_of_stepFrame {c : Byte} (h : stepFrame p f i k = some (c, n)) :
    ∃ r a, c = commandByte r a ∧ PresentsFrame p f i k r a n := by
  cases i with
  | rdf x =>
    simp only [stepFrame] at h
    split at h
    · cases h; subst k; exact ⟨_, _, rfl, .rdfBank x⟩
    · split at h
      · obtain ⟨len, hl, he⟩ := Option.map_eq_some_iff.1 h
        cases he; subst k; exact ⟨_, _, rfl, .rdfBurst x hl⟩
      · cases h
  | _ =>
    simp only [stepFrame] at h
    repeat' split at h
    all_goals cases h
    all_goals subst k; exact ⟨_, _, rfl, by constructor⟩

/-- The command byte tells which of the two frames is presented, and its address (30_encoding R77). -/
theorem presentsFrame_of_commandByte {r : Bool}
    (h : stepFrame p f i k = some (commandByte r a, n)) : PresentsFrame p f i k r a n := by
  obtain ⟨q, b, hc, hf⟩ := presentsFrame_of_stepFrame h
  obtain ⟨rfl, rfl⟩ := commandByte_inj hc
  exact hf

/-- A read frame answered Ok goes on to the next step, having latched `RBYTE` or not, or ends its request
with the bytes after the first (30_encoding R75). -/
theorem answered_read {rx : Bytes} (hf : PresentsFrame p f i k true a rx.length) (u : State) :
    ∃ t, answered i k rx u = .next t ∧ (t.seq = .step (k + 1) ∧ t.resp = u.resp ∨
      t.seq = .respond ∧ ((∃ b, rx.drop 1 = [b] ∧ t.resp = some ⟨.ok, .byte b⟩) ∨
        t.resp = some ⟨.ok, .bytes (rx.drop 1)⟩)) := by
  generalize hn : rx.length = n at hf
  cases hf with
  | rdr addr =>
    obtain ⟨b0, b, rfl, he⟩ := withReadByte_two (f := fun b => .next (respond .ok (.byte b) u)) hn
    exact ⟨_, he, .inr ⟨rfl, .inl ⟨b, rfl, rfl⟩⟩⟩
  | rmwRead m addr v sh =>
    obtain ⟨b0, b, rfl, he⟩ := withReadByte_two (f := fun b => .next (toStep 2 (latchByte b u))) hn
    exact ⟨_, he, .inl ⟨rfl, rfl⟩⟩
  | brd addr count => exact ⟨_, rfl, .inr ⟨rfl, .inr rfl⟩⟩
  | cfgfModeRead x =>
    obtain ⟨b0, b, rfl, he⟩ := withReadByte_two (f := fun b => .next (toStep 4 (latchByte b u))) hn
    exact ⟨_, he, .inl ⟨rfl, rfl⟩⟩
  | rdfBurst x => exact ⟨_, rfl, .inl ⟨rfl, rfl⟩⟩

theorem PresentsFrame.write_length (hf : PresentsFrame p f i k false a n) : n = 2 := by
  cases hf <;> rfl

/-- A write frame answered Ok goes on to the next step, or ends its request with no data, whatever was
received (30_encoding R76). -/
theorem answered_write (hf : PresentsFrame p f i k false a n) (rx : Bytes) (u : State) :
    ∃ t, answered i k rx u = .next t ∧ t.rbyte = u.rbyte ∧
      (t.seq = .step (k + 1) ∧ t.resp = u.resp ∨
        t.seq = .respond ∧ t.resp = some ⟨.ok, .none⟩) := by
  cases hf with
  | selb | wrr | rmwWrite => exact ⟨_, rfl, rfl, .inr ⟨rfl, rfl⟩⟩
  | cfgfBank | cfgfModeWrite | cfgfPattern | rdfBank => exact ⟨_, rfl, rfl, .inl ⟨rfl, rfl⟩⟩

end

/-! ## The frame on the transport port runs -/

/-- In a legal state the frame on the transport port is exchanged for the request that presented it. -/
theorem Inv.runFrame_exchange {r : Bool} {a : Addr} {l : Bytes} (hi : Inv s) (h : s.seq = .xfer k)
    (htx : s.tx = commandByte r a :: l) :
    ∃ i, runFrame (commandByte r a) s = exchange (answered i k) s ∧
      PresentsFrame s.cfg s.fmt i k r a s.tx.length := by
  obtain ⟨i, c, l', hr, htx', -, hf⟩ := hi.of_xfer h
  obtain ⟨rfl, -⟩ := List.cons.inj (htx'.symm.trans htx)
  exact ⟨i, runFrame_eq h (by simp [htx]) hr, presentsFrame_of_commandByte hf⟩

/-- Settles O43: the exchange of a read frame, by the answer. -/
theorem readFrameRuns : Obligations.ReadFrameRuns := by
  intro a s k l o rest hi h htx ha hfit
  obtain ⟨i, he, hf⟩ := hi.runFrame_exchange (r := true) h (htx.trans (by rw [commandByte_read]))
  have used {t} (ht : exec (.spiRead a) s = .next t) := (exec_move ht).uses_answer h ha
  cases o with
  | fail =>
    have ht := he.trans (exchange_fail ha)
    obtain ⟨hcs, htr, hans, hfmt, hs⟩ := used ht
    exact ⟨_, ht, hcs, htr, hans, hfmt, hs, fun _ => ⟨rfl, rfl⟩, nofun⟩
  | ok rx =>
    obtain ⟨t, hgo, hend⟩ := answered_read (hfit ▸ hf) (receive rx (endXfer (.ok rx) s))
    have ht := (he.trans (exchange_ok ha hfit)).trans hgo
    obtain ⟨hcs, htr, hans, hfmt, hs⟩ := used ht
    have hnone : s.resp = none := hi.resp_none (by simp [h])
    refine ⟨t, ht, hcs, htr, hans, hfmt, hs, nofun, ?_⟩
    rintro _ ⟨⟩
    simpa [hnone] using hend

/-- Settles O44: the exchange of a write frame, by the answer. -/
theorem writeFrameRuns : Obligations.WriteFrameRuns := by
  intro a s k l o rest hi h htx ha hfit
  obtain ⟨i, he, hf⟩ := hi.runFrame_exchange (r := false) h (htx.trans (by rw [commandByte_write]))
  have used {t} (ht : exec (.spiWrite a) s = .next t) := (exec_move ht).uses_answer h ha
  cases o with
  | fail =>
    have ht := he.trans (exchange_fail ha)
    obtain ⟨hcs, htr, hans, hfmt, hs⟩ := used ht
    exact ⟨_, ht, hcs, hf.write_length, htr, hans, hfmt, rfl, hs, fun _ => ⟨rfl, rfl⟩, nofun⟩
  | ok rx =>
    obtain ⟨t, hgo, hb, hend⟩ := answered_write hf rx (receive rx (endXfer (.ok rx) s))
    have ht := (he.trans (exchange_ok ha hfit)).trans hgo
    obtain ⟨hcs, htr, hans, hfmt, hs⟩ := used ht
    have hnone : s.resp = none := hi.resp_none (by simp [h])
    refine ⟨t, ht, hcs, hf.write_length, htr, hans, hfmt, hb, hs, nofun, ?_⟩
    rintro _ ⟨⟩
    simpa [hnone] using hend

end Sys2Proof.Machine
end

section
/-! What one move of the sequencer leaves unchanged, for every instruction (10_state R22, R26, R33): O1, O8,
O9, O10, O19. -/

namespace Sys2Proof.Machine

variable {s t : State} {i : Instr}

/-- Settles O1: the fields of the reset state. -/
theorem resetStateIsTheSpecs : Obligations.ResetStateIsTheSpecs :=
  ⟨rfl, rfl, rfl, rfl, rfl, rfl⟩

/-! ## Frames of a move -/

theorem Move.keepsSession (m : Move i s t) : keepsSession s t := by
  cases m <;> exact ⟨rfl, rfl, rfl, rfl⟩

theorem Move.fmt_cases (m : Move i s t) :
    t.fmt = s.fmt ∨ ∃ format, i = .cfgf format ∧ s.req = some i ∧ s.seq = .step 7 ∧
      t.fmt = format.setWidth 3 ∧ t.resp = some ⟨.ok, .none⟩ := by
  cases m with
  | configure format hi h hr => exact .inr ⟨format, hi, hr, h, rfl, rfl⟩
  | _ => exact .inl rfl

theorem usesByte_cases (h : usesByte i = true) :
    (∃ m a v sh, i = .rmw m a v sh) ∨ ∃ format, i = .cfgf format := by
  cases i with
  | rmw m a v sh => exact .inl ⟨m, a, v, sh, rfl⟩
  | cfgf format => exact .inr ⟨format, rfl⟩
  | _ => cases h

/-- `RBYTE` is written for a request in progress that uses it. -/
theorem Move.rbyte_cases (m : Move i s t) :
    t.rbyte = s.rbyte ∨ ∃ r, s.req = some r ∧ usesByte r = true := by
  cases m with
  | presentByte tx h hr hi => exact .inr ⟨i, hr, hi⟩
  | latch b r h hr hi => exact .inr ⟨r, hr, hi⟩
  | _ => exact .inl rfl

theorem Move.resp_cases (m : Move i s t) : t.resp = s.resp ∨ t.seq = .respond := by
  cases m with
  | fail | refuse | configure | sliced | finish => exact .inr rfl
  | _ => exact .inl rfl

/-- CS falls when `XFER(k)` begins and rises when it ends (10_state R26). -/
theorem Move.cs_cases (m : Move i s t) :
    (t.cs = s.cs ∧ ((∃ k, t.seq = .xfer k) ↔ ∃ k, s.seq = .xfer k)) ∨
      (∃ k, t.seq = .xfer k ∧ t.cs = .low) ∨
      ((∃ k, s.seq = .xfer k) ∧ t.cs = .high ∧ ¬∃ k, t.seq = .xfer k) := by
  cases m with
  | present | presentByte => exact .inr (.inl ⟨_, rfl, rfl⟩)
  | fail h | resume h | latch _ _ h | finish _ h => exact .inr (.inr ⟨⟨_, h⟩, rfl, by simp⟩)
  | silent => exact .inl ⟨rfl, Iff.rfl⟩
  | accept h | advance h | refuse _ h | configure _ _ h | sliced _ h => exact .inl ⟨rfl, by simp [h]⟩

/-! ## The statements -/

/-- Settles O8, by how a move drives CS. -/
theorem chipSelectLowExactlyInXfer : Obligations.ChipSelectLowExactlyInXfer := by
  refine ⟨rfl, fun s t hcs hn => ?_⟩
  obtain ⟨i, -, he⟩ | ⟨-, -, rfl⟩ | ⟨h, hn⟩ := step_cases hn
  · obtain ⟨hc, hx⟩ | ⟨k, hx, hc⟩ | ⟨-, hc, hx⟩ := (exec_move he).cs_cases
    · rw [hc, hx]; exact hcs
    · exact iff_of_true hc ⟨k, hx⟩
    · exact iff_of_false (by simp [hc]) hx
  · exact hcs
  · obtain ⟨r, -, rfl⟩ := takeResponse_cases hn
    simpa [h] using hcs

/-- Settles O9: of the moves, only CFGF's last one writes `FMT`. -/
theorem fmtIsWrittenOnlyByCfgf : Obligations.FmtIsWrittenOnlyByCfgf := by
  intro s t hn hne
  obtain ⟨i, -, he⟩ | ⟨-, -, rfl⟩ | ⟨-, hn⟩ := step_cases hn
  · obtain ⟨format, rfl, hr, h, hfmt, hresp⟩ := (exec_move he).fmt_cases.resolve_left hne
    exact ⟨format, hr, h, hfmt, hresp⟩
  · exact absurd rfl hne
  · obtain ⟨r, -, rfl⟩ := takeResponse_cases hn
    exact absurd rfl hne

/-- Settles O10: in `RESPOND` the response is taken, and no other step touches the session. -/
theorem takingTheResponseAdvancesPc : Obligations.TakingTheResponseAdvancesPc := by
  refine ⟨rfl, fun s t hn => ⟨fun h => ?_, fun h => ?_⟩⟩
  · rw [step_respond h] at hn
    obtain ⟨r, hr, rfl⟩ := takeResponse_cases hn
    exact ⟨r, hr, rfl, rfl, rfl, rfl, rfl, rfl, rfl, rfl, rfl, rfl, rfl, rfl⟩
  · obtain ⟨i, -, he⟩ | ⟨-, -, rfl⟩ | ⟨h', -⟩ := step_cases hn
    · obtain ⟨-, -, hpc, hrs⟩ := (exec_move he).keepsSession
      exact ⟨hpc, hrs⟩
    · exact ⟨rfl, rfl⟩
    · exact absurd h' h

/-- Settles O19, clause by clause. -/
theorem execFrame : Obligations.ExecFrame := by
  intro i s t he
  have m := exec_move he
  refine ⟨m.keepsSession, m.fmt_cases.imp_right ?_, m.rbyte_cases.imp_right ?_,
    m.quiet_or_answered.imp_right ?_, m.resp_cases, ?_⟩
  · rintro ⟨format, hi, -, h, hfmt, -⟩
    exact ⟨format, hi, h, hfmt⟩
  · rintro ⟨r, hr, hb⟩
    exact ⟨r, hr, usesByte_cases hb⟩
  · rintro ⟨k, o, rest, h, ha⟩
    obtain ⟨-, htr, hans, -, -⟩ := m.uses_answer h ha
    exact ⟨k, o, rest, h, ha, hans, htr⟩
  · obtain ⟨hc, -⟩ | hx | ⟨⟨k, h⟩, hc, -⟩ := m.cs_cases
    · exact .inl hc
    · exact .inr (.inl hx)
    · exact .inr (.inr ⟨k, h, hc⟩)

end Sys2Proof.Machine
end

section
/-! What runs in a step: the decoded instruction, the word or the frame that the host places, and a reserved
request (10_state R28, 30_encoding R74, R77): O6, O7, O35. -/

namespace Sys2Proof.Machine

variable {s : State} {k : Nat}

theorem step_frame {c : Byte} {l : Bytes} (h : s.seq = .xfer k) (htx : s.tx = c :: l) :
    step s = exec (decodeCommand c) s := by
  simp only [step, fetch, h, htx]

/-- Settles O6, by the place of the sequencer. -/
theorem stepRunsTheDecodedInstruction : Obligations.StepRunsTheDecodedInstruction := by
  rintro s i -
  refine ⟨?_, fun k h hr => step_step h hr, ?_, step_respond⟩
  · rintro w h hw rfl
    exact step_idle h hw
  · rintro k c l h htx rfl
    exact step_frame h htx

/-! ## Words placed by the host -/

theorem withFetchWord_request (s : State) (w : Nat) :
    s.withFetchWord 32 w = presentWord (BitVec.ofNat 32 w) s := rfl

/-- The number `0x80 + a` has its bit 7 set, so it is no request word (log 15). -/
theorem tableWord_read (a : Addr) :
    tableWord 8 (0x80 + a.toNat) = .ok (.command (commandByte true a)) := by
  revert a; decide

theorem withFetchWord_read (s : State) (a : Addr) : s.withFetchWord 8 (0x80 + a.toNat) =
    presentFrame (.rdr (a.setWidth 8)) [commandByte true a, 0x00#8] s := by
  simp [State.withFetchWord, tableWord_read, placeEncoded, decodeCommand_commandByte]

/-- Settles O7: a placed word is at `pc`, a placed frame is on the transport port. -/
theorem placedWordRunsNext : Obligations.PlacedWordRunsNext := by
  refine ⟨fun s w => ?_, fun s a => ?_⟩
  · rw [withFetchWord_request]
    exact step_idle rfl (placeWord_at _ s)
  · rw [withFetchWord_read, step_frame rfl (presentFrame_tx s _ (by simp)),
      decodeCommand_commandByte, if_pos rfl]

/-! ## Reserved requests -/

theorem decodeRequest_of_zero {w : ReqWord} (h : fieldOP w = 0) : decodeRequest w = .reserved0 := by
  simp [decodeRequest, h]

/-- In `STEP(1)` a reserved request is refused (30_encoding R74, log 13). -/
theorem exec_reserved {w : ReqWord} (hw : fieldOP w = 0 ∨ 8#4 ≤ fieldOP w) (h : s.seq = .step 1)
    (hr : s.req = some (decodeRequest w)) :
    exec (decodeRequest w) s = .next (raise .invalidArgument s) := by
  obtain hw | hw := hw
  · rw [decodeRequest_of_zero hw] at hr ⊢
    exact reserved0_step h hr
  · rw [decodeRequest_of_reserved w hw] at hr ⊢
    exact reserved8F_step _ h hr

/-- Settles O35: the two transitions of a reserved request. -/
theorem reservedOpcodesAreRefused : Obligations.ReservedOpcodesAreRefused := by
  intro w s hw h
  refine ⟨⟨decodeRequest_of_zero, decodeRequest_of_reserved w⟩,
    accept (decodeRequest w) s, raise .invalidArgument (accept (decodeRequest w) s),
    ⟨exec_idle (decodeRequest_isRequest w) h, exec_reserved hw rfl rfl, trivial⟩, ?_⟩
  simp [keepsSession]

end Sys2Proof.Machine
end

section
/-! The invariant of the legal states and the length of a request's run: which moves a request's step list
makes from a legal state, that they lead to legal states, and that each brings the request nearer to its
end (10_state R22 to R31, 40_register_access R90): O2, O3, O13, O18. -/

namespace Sys2Proof.Machine

variable {s t u : State} {i : Instr} {k : Nat}

/-! ## Where a request goes on -/

/-- A state whose request may go on: no transaction is on the port and no response is held. -/
structure Ready (u : State) : Prop where
  fmt_legal : u.fmt ≤ 4#3
  cs_high : u.cs = .high
  resp_none : u.resp = none
  tx_empty : u.txlen = 0
  rx_fits : u.rxlen ≤ 256

theorem Inv.ready_of_step (hi : Inv s) (h : s.seq = .step k) : Ready s where
  fmt_legal := hi.fmt_legal
  cs_high := by
    have hcs := hi.cs_low
    cases hc : s.cs <;> simp_all [inXfer]
  resp_none := hi.resp_none (by simp [h])
  tx_empty := by simpa [inXfer, h] using hi.tx_held
  rx_fits := hi.rx_fits

/-- After the Ok answer of a legal transaction its request may go on. -/
theorem Inv.ready_of_answer {rx : Bytes} (hi : Inv s) (h : s.seq = .xfer k)
    (hl : rx.length = s.tx.length) : Ready (receive rx (endXfer (.ok rx) s)) where
  fmt_legal := hi.fmt_legal
  cs_high := rfl
  resp_none := hi.resp_none (by simp [h])
  tx_empty := rfl
  rx_fits := hl.trans_le (tx_length_le s)

theorem Ready.releasedByte (hu : Ready u) : Ready (releaseByte u) := { hu with }

theorem Ready.latchedByte (hu : Ready u) (b : Byte) : Ready (latchByte b u) := { hu with }

/-- Where request `i` goes when its step k is over: to a step that its checks let it reach, or to the end
with a legal response. -/
inductive GoesOn (i : Instr) (k : Nat) : State → Prop where
  | next {u : State} (hu : Ready u) (hr : u.req = some i) (hk : stepReached u.fmt i (k + 1) = true)
      (hp : packetHeld i (k + 1) u = true) : GoesOn i k (toStep (k + 1) u)
  | finish {u : State} {st d} (hf : u.fmt ≤ 4#3) (hcs : u.cs = .high) (hd : legalResponse ⟨st, d⟩ = true) :
      GoesOn i k (respond st d u)

/-- What `STEP(k)` of request `i` does: its transaction begins, or it is over. -/
inductive StepMove (i : Instr) (k : Nat) : State → Prop where
  | ends {t : State} (h : GoesOn i k t) : StepMove i k t
  | begins {u : State} (hu : Ready u) (hr : u.req = some i) (hk : stepReached u.fmt i k = true) (c : Byte)
      (l : Bytes) (hf : stepFrame u.cfg u.fmt i k = some (c, l.length + 1)) :
      StepMove i k (present k (c :: l) u)

/-! ## They are legal states -/

theorem Ready.inv_toStep (hu : Ready u) (hr : u.req = some i) (hk : stepReached u.fmt i k = true)
    (hp : packetHeld i k u = true) : Inv (toStep k u) where
  fmt_legal := hu.fmt_legal
  cs_low := by simp [hu.cs_high, inXfer]
  resp_held := by simp [hu.resp_none, inRespond]
  resp_legal := by simp [hu.resp_none]
  placed := by
    simp only [placed, toStep_seq, toStep_req, toStep_fmt, hr, hk, Bool.true_and]
    exact hp
  tx_fits := by simp [hu.tx_empty]
  rx_fits := hu.rx_fits
  tx_held := .inl hu.tx_empty

theorem Ready.inv_present {c : Byte} {l : Bytes} (hu : Ready u) (hr : u.req = some i)
    (hk : stepReached u.fmt i k = true)
    (hf : stepFrame u.cfg u.fmt i k = some (c, l.length + 1)) : Inv (present k (c :: l) u) := by
  have hl : (c :: l).length ≤ 256 := (stepFrame_bounds hk hf).2
  exact {
    fmt_legal := hu.fmt_legal
    cs_low := by simp [inXfer]
    resp_held := by simp [hu.resp_none, inRespond]
    resp_legal := by simp [hu.resp_none]
    placed := by simp [placed, hr, hk, framePresented, present_tx u k hl, hf]
    tx_fits := hl
    rx_fits := Nat.zero_le _
    tx_held := .inr rfl }

theorem inv_respond {st : Status} {d : Data} (hf : u.fmt ≤ 4#3) (hcs : u.cs = .high)
    (hd : legalResponse ⟨st, d⟩ = true) : Inv (respond st d u) where
  fmt_legal := hf
  cs_low := by simp [hcs, inXfer]
  resp_held := rfl
  resp_legal := hd
  placed := rfl
  tx_fits := Nat.zero_le _
  rx_fits := Nat.zero_le _
  tx_held := .inl rfl

theorem GoesOn.inv (h : GoesOn i k t) : Inv t := by
  cases h with
  | next hu hr hk hp => exact hu.inv_toStep hr hk hp
  | finish hf hcs hd => exact inv_respond hf hcs hd

theorem StepMove.inv (h : StepMove i k t) : Inv t := by
  cases h with
  | ends h => exact h.inv
  | begins hu hr hk c l hf => exact hu.inv_present hr hk hf

/-! ## What the step lists do -/

theorem Ready.refuse (hu : Ready u) {st : Status} (hst : st ≠ .notImplemented) :
    StepMove i k (raise st u) :=
  .ends (.finish hu.fmt_legal hu.cs_high (by simp [legalResponse, errorHasNoData, hst]))

theorem Ready.finish (hu : Ready u) (d : Data) : GoesOn i k (respond .ok d u) :=
  .finish hu.fmt_legal hu.cs_high (by simp [legalResponse, errorHasNoData])

/-- A check refuses the request, or lets it go on to a step that is reached then. -/
theorem Ready.check {c : Prop} [Decidable c] {st : Status} (hu : Ready u)
    (hr : u.req = some i) (hst : st ≠ .notImplemented)
    (hk : ¬c → stepReached u.fmt i (k + 1) = true) (hp : packetHeld i (k + 1) u = true) :
    ∃ t, (if c then .next (raise st u) else .next (toStep (k + 1) u) : Result) = .next t ∧
      StepMove i k t := by
  by_cases hc : c
  · exact ⟨_, if_pos hc, hu.refuse hst⟩
  · exact ⟨_, if_neg hc, .ends (.next hu hr (hk hc) hp)⟩

/-- The format that CFGF writes is a legal one (45 R134). -/
theorem format_legal {format : Byte} (h : formatRefused format = false) :
    (format.setWidth 3 : Format) ≤ 4#3 := by
  revert format; decide

theorem cfgfSteps_move {format : Byte} (hu : Ready u) (hr : u.req = some (.cfgf format))
    (hk : stepReached u.fmt (.cfgf format) k = true) :
    ∃ t, cfgfSteps format k u = .next t ∧ StepMove (.cfgf format) k t := by
  obtain rfl | ⟨⟨hk2, hk7⟩, hc⟩ : k = 1 ∨ (2 ≤ k ∧ k ≤ 7) ∧ formatRefused format = false := by
    simpa [stepReached] using hk
  · exact hu.check hr nofun (fun hc => by simpa [stepReached] using hc) rfl
  obtain rfl | rfl | rfl | rfl | rfl | rfl : k = 2 ∨ k = 3 ∨ k = 4 ∨ k = 5 ∨ k = 6 ∨ k = 7 := by
    omega
  · exact ⟨_, rfl, .begins hu hr hk _ _ rfl⟩
  · exact ⟨_, rfl, .begins hu hr hk _ _ rfl⟩
  · exact ⟨_, rfl, .ends (.next hu hr (by simp [stepReached, hc]) rfl)⟩
  · exact ⟨_, rfl, .begins hu.releasedByte hr hk _ _ rfl⟩
  · obtain ⟨p, hp⟩ := fifoPattern_some u.cfg hc
    exact ⟨_, by simp only [cfgfSteps, hp]; rfl, .begins hu hr hk _ _ rfl⟩
  · exact ⟨_, rfl, .ends (.finish (format_legal hc) hu.cs_high rfl)⟩

theorem rdfSteps_move {fields : Presence} (hu : Ready u) (hr : u.req = some (.rdf fields))
    (hk : stepReached u.fmt (.rdf fields) k = true) :
    ∃ t, rdfSteps fields k u = .next t ∧ StepMove (.rdf fields) k t := by
  obtain ((rfl | rfl) | ⟨rfl, h0⟩) | ⟨rfl | rfl, hq⟩ := by
    simpa only [stepReached, Bool.or_eq_true, Bool.and_eq_true, decide_eq_true_eq] using hk
  · exact ⟨_, rfl, .begins hu hr hk _ _ rfl⟩
  · exact hu.check hr nofun (fun h0 => by simpa [stepReached] using h0) rfl
  · obtain ⟨-, req, -, hreq, -⟩ := layout_some hu.fmt_legal h0
    simp only [rdfSteps, hreq]
    rw [← ite_not]
    exact hu.check hr nofun (fun hc => by simpa [stepReached, hreq] using hc) rfl
  · obtain ⟨req, hreq, -⟩ := (Option.any_eq_true _ _).1 hq
    obtain ⟨len, hlen⟩ := fifoLen_of_requiredFields hreq
    exact ⟨_, by simp only [rdfSteps, hlen]; rfl,
      .begins hu hr hk _ _ (by simp [stepFrame, hlen])⟩
  · exact ⟨_, rfl, .ends (hu.finish _)⟩

/-- In `STEP(k)` the request in progress begins its transaction or goes on. -/
theorem Ready.exec_move (hu : Ready u) (h : u.seq = .step k) (hr : u.req = some i)
    (hk : stepReached u.fmt i k = true) : ∃ t, exec i u = .next t ∧ StepMove i k t := by
  cases i with
  | selb bank =>
    rw [selb_step bank h hr]
    obtain rfl | ⟨rfl, hc⟩ : k = 1 ∨ k = 2 ∧ bankRefused bank = false := by
      simpa [stepReached] using hk
    · exact hu.check hr nofun (fun hc => by simpa [stepReached] using hc) rfl
    · exact ⟨_, rfl, .begins hu hr hk _ _ rfl⟩
  | rdr addr =>
    obtain rfl : k = 1 := by simpa [stepReached] using hk
    exact ⟨_, rdr_step addr h hr, .begins hu hr hk _ _ rfl⟩
  | wrr addr data =>
    obtain rfl : k = 1 := by simpa [stepReached] using hk
    exact ⟨_, wrr_step addr data h hr, .begins hu hr hk _ _ rfl⟩
  | rmw mask addr value shift =>
    rw [rmw_step mask addr value shift h hr]
    obtain (rfl | rfl) | rfl : (k = 1 ∨ k = 2) ∨ k = 3 := by simpa [stepReached] using hk
    · exact ⟨_, rfl, .begins hu hr hk _ _ rfl⟩
    · exact ⟨_, rfl, .ends (.next hu hr rfl rfl)⟩
    · exact ⟨_, rfl, .begins hu.releasedByte hr hk _ _ rfl⟩
  | brd addr count =>
    rw [brd_step addr count h hr]
    obtain rfl | ⟨rfl, hc⟩ : k = 1 ∨ k = 2 ∧ countRefused count = false := by
      simpa [stepReached] using hk
    · exact hu.check hr nofun (fun hc => by simpa [stepReached] using hc) rfl
    · exact ⟨_, rfl, .begins hu hr hk _ _ (by simp [stepFrame])⟩
  | cfgf format =>
    rw [cfgf_step format h hr]
    exact cfgfSteps_move hu hr hk
  | rdf fields =>
    rw [rdf_step fields h hr]
    exact rdfSteps_move hu hr hk
  | reserved0 =>
    obtain rfl : k = 1 := by simpa [stepReached] using hk
    exact ⟨_, reserved0_step h hr, hu.refuse nofun⟩
  | reserved8F op =>
    obtain rfl : k = 1 := by simpa [stepReached] using hk
    exact ⟨_, reserved8F_step op h hr, hu.refuse nofun⟩
  | spiRead a => cases hk
  | spiWrite a => cases hk

/-- The answer Ok to the transaction of step k takes request `i` on, `RXBUF` holding what was received. -/
theorem Ready.answered_goesOn {p : Params} {r : Bool} {a : Addr} (hu : Ready u) (hr : u.req = some i)
    (hk : stepReached u.fmt i k = true) (hf : PresentsFrame p u.fmt i k r a u.rx.length) {rx : Bytes}
    (hrx : u.rx = rx) : ∃ t, answered i k rx u = .next t ∧ GoesOn i k t := by
  subst hrx
  generalize hn : u.rx.length = n at hf
  generalize hm : u.fmt = f at hf
  cases hf with
  | selb | wrr | rmwWrite => exact ⟨_, rfl, hu.finish _⟩
  | brd => exact ⟨_, rfl, hu.finish _⟩
  | rdr addr =>
    obtain ⟨b0, b, -, he⟩ := withReadByte_two (f := fun b => .next (respond .ok (.byte b) u)) hn
    exact ⟨_, he, hu.finish _⟩
  | rmwRead m addr v sh =>
    obtain ⟨b0, b, -, he⟩ := withReadByte_two (f := fun b => .next (toStep 2 (latchByte b u))) hn
    exact ⟨_, he, .next (hu.latchedByte b) hr rfl rfl⟩
  | cfgfModeRead x =>
    obtain ⟨b0, b, -, he⟩ := withReadByte_two (f := fun b => .next (toStep 4 (latchByte b u))) hn
    exact ⟨_, he, .next (hu.latchedByte b) hr (by simpa [stepReached] using hk) rfl⟩
  | cfgfBank x | cfgfModeWrite x | cfgfPattern x =>
    exact ⟨_, rfl, .next hu hr (by simpa [stepReached] using hk) rfl⟩
  | rdfBank x => exact ⟨_, rfl, .next hu hr rfl rfl⟩
  | rdfBurst x hl =>
    exact ⟨_, rfl, .next hu hr (by simpa [stepReached] using hk) (by simp [packetHeld, hm, hl, hn])⟩

/-! ## Every step keeps the invariant -/

/-- The move of a legal state in `STEP(k)`. -/
theorem Inv.step_move (hi : Inv s) (h : s.seq = .step k) (hn : step s = .next t) :
    ∃ i, s.req = some i ∧ stepReached s.fmt i k = true ∧ StepMove i k t := by
  obtain ⟨i, hr, hk, -⟩ := hi.of_step h
  obtain ⟨t', ht, hm⟩ := (hi.ready_of_step h).exec_move h hr hk
  obtain rfl : t' = t := Host.Outcome.next.inj (ht.symm.trans ((step_step h hr).symm.trans hn))
  exact ⟨i, hr, hk, hm⟩

/-- The move of a legal state in `XFER(k)`, by the answer. -/
theorem Inv.xfer_move (hi : Inv s) (h : s.seq = .xfer k) (hn : step s = .next t) :
    (s.answers = [] ∧ t = s) ∨
      ∃ i c, s.req = some i ∧ stepReached s.fmt i k = true ∧
        stepFrame s.cfg s.fmt i k = some (c, s.tx.length) ∧ GoesOn i k t := by
  obtain ⟨i, c, hr, hstep, hk, -, hf⟩ := hi.step_xfer h
  obtain ⟨ha, rfl⟩ | ⟨rest, ha, rfl⟩ | ⟨rx, rest, ha, hl, hgo⟩ := exchange_cases (hstep ▸ hn)
  · exact .inl ⟨ha, rfl⟩
  · exact .inr ⟨i, c, hr, hk, hf, .finish hi.fmt_legal rfl rfl⟩
  · have hrx := receive_rx (endXfer (.ok rx) s) (hl.trans_le (tx_length_le s))
    obtain ⟨r, a, -, hp⟩ := presentsFrame_of_stepFrame hf
    obtain ⟨t', ht, hg⟩ := (hi.ready_of_answer h hl).answered_goesOn hr hk
      (by rw [hrx, hl]; exact hp) hrx
    obtain rfl : t' = t := Host.Outcome.next.inj (ht.symm.trans hgo)
    exact .inr ⟨i, c, hr, hk, hf, hg⟩

theorem Inv.accepted (hi : Inv s) (h : s.seq = .idle) (hq : i.isRequest = true) : Inv (accept i s) where
  fmt_legal := hi.fmt_legal
  cs_low := by simpa [inXfer, h] using hi.cs_low
  resp_held := by simpa [inRespond, h] using hi.resp_held
  resp_legal := hi.resp_legal
  placed := by
    cases i with
    | spiRead a | spiWrite a => cases hq
    | _ => rfl
  tx_fits := hi.tx_fits
  rx_fits := hi.rx_fits
  tx_held := by simpa [inXfer, h] using hi.tx_held

theorem Inv.taken {r : Response} (hi : Inv s) (h : s.seq = .respond) : Inv
    { s with seq := .idle, resp := none, responses := s.responses ++ [r], pc := s.pc + 1 } where
  fmt_legal := hi.fmt_legal
  cs_low := by simpa [inXfer, h] using hi.cs_low
  resp_held := rfl
  resp_legal := rfl
  placed := by simp [Machine.placed, hi.req_none_of_respond h]
  tx_fits := hi.tx_fits
  rx_fits := hi.rx_fits
  tx_held := by simpa [inXfer, h] using hi.tx_held

/-- Settles O3, by the place of the sequencer. -/
theorem stepKeepsTheInvariant : Obligations.StepKeepsTheInvariant := by
  intro s t hi hn
  cases h : s.seq with
  | idle =>
    cases hw : s.program[s.pc]? with
    | none =>
      obtain rfl := Host.Outcome.next.inj ((step_wait h hw).symm.trans hn)
      exact hi
    | some w =>
      have hq := decodeRequest_isRequest w
      obtain rfl := Host.Outcome.next.inj ((exec_idle hq h).symm.trans ((step_idle h hw).symm.trans hn))
      exact hi.accepted h hq
  | step k =>
    obtain ⟨i, -, -, hm⟩ := hi.step_move h hn
    exact hm.inv
  | xfer k =>
    obtain ⟨-, rfl⟩ | ⟨i, c, -, -, -, hg⟩ := hi.xfer_move h hn
    · exact hi
    · exact hg.inv
  | respond =>
    obtain ⟨r, -, rfl⟩ := takeResponse_cases (step_respond h ▸ hn)
    exact hi.taken h

/-- Settles O2: after reset nothing is in progress. -/
theorem resetMeetsTheInvariant : Obligations.ResetMeetsTheInvariant where
  fmt_legal := by decide
  cs_low := by decide
  resp_held := rfl
  resp_legal := rfl
  placed := rfl
  tx_fits := Nat.zero_le _
  rx_fits := Nat.zero_le _
  tx_held := .inl rfl

theorem inXfer_iff : inXfer s = true ↔ ∃ k, s.seq = .xfer k := by
  unfold inXfer
  split <;> simp_all

/-- Settles O13, by the invariant of the next state. -/
theorem presentedFramesHave2To256Bytes : Obligations.PresentedFramesHave2To256Bytes := by
  intro s t hi hn hx
  have hit := stepKeepsTheInvariant s t hi hn
  obtain ⟨k, h⟩ := inXfer_iff.1 hx
  obtain ⟨i, c, l, -, -, hk, hf⟩ := hit.of_xfer h
  have hb := stepFrame_bounds hk hf
  rw [hit.tx_length] at hb
  exact ⟨hit.tx_length, hb⟩

/-! ## A request ends -/

/-- A bound on the steps that request `i` takes from its `STEP(k)` until its response is taken. CFGF has the
longest run, of four transactions; its steps 1, 4 and 7 make none (45 R133). -/
def stepBound (i : Instr) (k : Nat) : Nat :=
  match i with
  | .cfgf _ => min 12 (15 + k / 5 - 2 * k)
  | _ => 13 - 2 * k

/-- A bound on the steps from a state with a request in progress until the response to it is taken. -/
def stepsLeft (s : State) : Nat :=
  match s.seq, s.req with
  | .step k, some i => stepBound i k
  | .xfer k, some i => stepBound i k - 1
  | .respond, _ => 1
  | _, _ => 0

theorem stepBound_le (i : Instr) {k : Nat} (hk : 1 ≤ k) : stepBound i k ≤ 12 := by
  cases i with
  | cfgf format => exact Nat.min_le_left _ _
  | _ => simp only [stepBound]; omega

theorem stepReached_bounds {f : Format} (hk : stepReached f i k = true) :
    1 ≤ k ∧ (k ≤ 5 ∨ (∃ format, i = .cfgf format) ∧ k ≤ 7) := by
  cases i <;> simp [stepReached] at hk ⊢ <;> omega

/-- A step with no transaction brings its request nearer to the end. -/
theorem stepBound_step {f : Format} (hk : stepReached f i k = true) :
    2 ≤ stepBound i k ∧ stepBound i (k + 1) < stepBound i k := by
  obtain ⟨h1, h5 | ⟨⟨format, rfl⟩, h7⟩⟩ := stepReached_bounds hk
  · cases i <;> simp only [stepBound] <;> omega
  · simp only [stepBound]; omega

/-- A step with a transaction takes two of the steps left. -/
theorem stepBound_xfer {p : Params} {f : Format} {c : Byte} {n : Nat}
    (hf : stepFrame p f i k = some (c, n)) :
    3 ≤ stepBound i k ∧ stepBound i (k + 1) + 2 ≤ stepBound i k := by
  obtain ⟨r, a, -, hp⟩ := presentsFrame_of_stepFrame hf
  cases hp <;> exact ⟨by simp [stepBound], by simp [stepBound]⟩

theorem GoesOn.stepsLeft_cases (h : GoesOn i k t) :
    t.seq ≠ .idle ∧ (stepsLeft t = stepBound i (k + 1) ∨ stepsLeft t = 1) := by
  cases h with
  | next hu hr hk hp => exact ⟨nofun, .inl (by simp [stepsLeft, hr])⟩
  | finish hf hcs hd => exact ⟨nofun, .inr rfl⟩

/-- In a legal state every step of an answered request brings it nearer to its end. -/
theorem Inv.step_nearer (hi : Inv s) (hidle : s.seq ≠ .idle) (hresp : s.seq ≠ .respond)
    (hans : inXfer s = true → s.answers ≠ []) (hn : step s = .next t) :
    t.seq ≠ .idle ∧ stepsLeft t < stepsLeft s := by
  cases h : s.seq with
  | idle => exact absurd h hidle
  | step k =>
    obtain ⟨i, hr, hk, hm⟩ := hi.step_move h hn
    obtain ⟨h2, hlt⟩ := stepBound_step hk
    have hs : stepsLeft s = stepBound i k := by simp [stepsLeft, h, hr]
    cases hm with
    | ends hg =>
      obtain ⟨hq, ht⟩ := hg.stepsLeft_cases
      exact ⟨hq, by omega⟩
    | begins hu hru _ c l hf =>
      refine ⟨nofun, ?_⟩
      simp only [stepsLeft, present_seq, present_req, hru, h, hr]
      omega
  | xfer k =>
    obtain ⟨ha, -⟩ | ⟨i, c, hr, -, hf, hg⟩ := hi.xfer_move h hn
    · exact absurd ha (hans (by simp [inXfer, h]))
    · obtain ⟨h3, hle⟩ := stepBound_xfer hf
      have hs : stepsLeft s = stepBound i k - 1 := by simp [stepsLeft, h, hr]
      obtain ⟨hq, ht⟩ := hg.stepsLeft_cases
      exact ⟨hq, by omega⟩
  | respond => exact absurd h hresp

/-- On the run from `s`, until the response is taken, every transaction has a legal answer (00_scope R10). -/
def Served (s : State) : Prop :=
  ∀ n u, Host.Core.run Sys2Proof.core n s = .next u → u.pc = s.pc → inXfer u = true →
    answerLegal u = true ∧ u.answers ≠ []

theorem Served.now (hs : Served s) (hx : inXfer s = true) : answerLegal s = true ∧ s.answers ≠ [] :=
  hs 0 s rfl rfl hx

theorem Served.step (hs : Served s) (hn : step s = .next t) (hpc : t.pc = s.pc) : Served t :=
  fun n u hu hp => hs (n + 1) u ((run_succ hn).trans hu) (hp.trans hpc)

/-- The run from `s` takes one response, in at most `m` steps. -/
def AnsweredWithin (m : Nat) (s : State) : Prop :=
  ∃ n t r, n ≤ m ∧ Host.Core.run Sys2Proof.core n s = .next t ∧ t.seq = .idle ∧
    t.pc = s.pc + 1 ∧ t.responses = s.responses ++ [r]

/-- One more step before the response is taken. -/
theorem AnsweredWithin.after_step {m m' : Nat} (ha : AnsweredWithin m t) (hn : step s = .next t)
    (hresp : s.seq ≠ .respond) (hm : m < m') : AnsweredWithin m' s := by
  obtain ⟨hpc, hrs⟩ := (takingTheResponseAdvancesPc.2 s t hn).2 hresp
  obtain ⟨n, v, r, hnm, hrun, hseq, hpc', hrs'⟩ := ha
  exact ⟨n + 1, v, r, by omega, (run_succ hn).trans hrun, hseq, hpc ▸ hpc', hrs ▸ hrs'⟩

theorem Inv.answeredWithin_respond (hi : Inv s) (h : s.seq = .respond) : AnsweredWithin 1 s := by
  have hheld : s.resp.isSome = true := by simp [hi.resp_held, inRespond, h]
  obtain ⟨r, hr⟩ := Option.isSome_iff_exists.1 hheld
  exact ⟨1, _, r, le_rfl, run_succ (step_taken h hr), rfl, rfl, rfl⟩

/-- A request in progress whose transactions are answered ends within the bound, by induction on it. -/
theorem Inv.answeredWithin_stepsLeft (hi : Inv s) (hidle : s.seq ≠ .idle) (hs : Served s) :
    AnsweredWithin (stepsLeft s) s := by
  induction hm : stepsLeft s using Nat.strong_induction_on generalizing s with
  | _ m ih =>
    subst hm
    by_cases h : s.seq = .respond
    · have h1 : stepsLeft s = 1 := by simp [stepsLeft, h]
      exact h1 ▸ hi.answeredWithin_respond h
    · obtain ⟨t, hn⟩ := legalStatesAlwaysStep s hi fun hx => (hs.now hx).1
      obtain ⟨hpc, -⟩ := (takingTheResponseAdvancesPc.2 s t hn).2 h
      obtain ⟨hq, hlt⟩ := hi.step_nearer hidle h (fun hx => (hs.now hx).2) hn
      exact (ih _ hlt (stepKeepsTheInvariant s t hi hn) hq (hs.step hn hpc) rfl).after_step hn h hlt

/-- Settles O18: the port takes the request, which then has at most 12 steps left. -/
theorem everyRequestIsAnswered : Obligations.EveryRequestIsAnswered := by
  intro s w hi h hw hs
  have hq := decodeRequest_isRequest w
  have hn : step s = .next (accept (decodeRequest w) s) := (step_idle h hw).trans (exec_idle hq h)
  have ha := (hi.accepted h hq).answeredWithin_stepsLeft nofun (Served.step hs hn rfl)
  exact ha.after_step hn (by simp [h]) (Nat.lt_succ_of_le (stepBound_le _ le_rfl))

end Sys2Proof.Machine
end

section
/-! What no step reads: the program while the sequencer is busy, the records of the past, the bytes past the
lists in the buffers (10_state R24, R28, R31, R34): O16, O17, O50. -/

namespace Sys2Proof.Machine

variable {s s' t : State} {i : Instr} {k : Nat}

/-! ## Relations that no step can tell -/

/-- The two states agree on what the moves of the sequencer read. -/
structure SameView (s s' : State) : Prop where
  fmt : s'.fmt = s.fmt
  seq : s'.seq = s.seq
  rbyte : s'.rbyte = s.rbyte
  resp : s'.resp = s.resp
  req : s'.req = s.req
  cfg : s'.cfg = s.cfg
  answers : s'.answers = s.answers
  tx : s'.tx = s.tx
  rx : s'.rx = s.rx

/-- The updates of which every move of the sequencer is made (Machine/Ops.lean). -/
inductive Update : (State → State) → Prop where
  | accept (i : Instr) : Update (accept i)
  | toStep (k : Nat) : Update (toStep k)
  | present (k : Nat) (tx : Bytes) : Update (present k tx)
  | endXfer (o : Answer) : Update (endXfer o)
  | receive (rx : Bytes) : Update (receive rx)
  | latchByte (b : Byte) : Update (latchByte b)
  | releaseByte : Update releaseByte
  | setFmt (f : Format) : Update (setFmt f)
  | respond (st : Status) (d : Data) : Update (respond st d)
  | take (r : Response) : Update fun s =>
      { s with seq := .idle, resp := none, responses := s.responses ++ [r], pc := s.pc + 1 }

/-- The relation holds only between states of the same view, and every update keeps it. -/
structure Unread (R : State → State → Prop) : Prop where
  view {s s' : State} : R s s' → SameView s s'
  keeps {s s' : State} {f : State → State} : R s s' → Update f → R (f s) (f s')

/-- The same outcome, up to the relation between the next states. -/
inductive SameOutcome (R : State → State → Prop) : Result → Result → Prop where
  | next {t t' : State} (h : R t t') : SameOutcome R (.next t) (.next t')
  | fault (r) : SameOutcome R (.fault r) (.fault r)
  | refused (r) : SameOutcome R (.refused r) (.refused r)

theorem SameOutcome.of_next {R : State → State → Prop} {o : Result} (h : SameOutcome R (.next t) o) :
    ∃ t', o = .next t' ∧ R t t' := by
  cases h with
  | next h => exact ⟨_, rfl, h⟩

section
variable {R : State → State → Prop}

theorem Unread.toStep (hR : Unread R) (k : Nat) (h : R s s') : R (toStep k s) (toStep k s') :=
  hR.keeps h (.toStep k)

theorem Unread.present (hR : Unread R) (k : Nat) (tx : Bytes) (h : R s s') :
    R (present k tx s) (present k tx s') := hR.keeps h (.present k tx)

theorem Unread.latchByte (hR : Unread R) (b : Byte) (h : R s s') :
    R (latchByte b s) (latchByte b s') := hR.keeps h (.latchByte b)

theorem Unread.releaseByte (hR : Unread R) (h : R s s') : R (releaseByte s) (releaseByte s') :=
  hR.keeps h .releaseByte

theorem Unread.respond (hR : Unread R) (st : Status) (d : Data) (h : R s s') :
    R (respond st d s) (respond st d s') := hR.keeps h (.respond st d)

/-- Both states are checked alike. -/
theorem SameOutcome.ite {c : Prop} [Decidable c] {o1 o2 o1' o2' : Result} (h1 : SameOutcome R o1 o1')
    (h2 : SameOutcome R o2 o2') : SameOutcome R (if c then o1 else o2) (if c then o1' else o2') := by
  split <;> assumption

theorem Unread.withReadByte (rx : Bytes) {f f' : Byte → Result}
    (h : ∀ b, SameOutcome R (f b) (f' b)) : SameOutcome R (withReadByte rx f) (withReadByte rx f') := by
  unfold Machine.withReadByte
  split
  · exact h _
  · exact .fault _

/-! ## The step lists and the answers -/

theorem Unread.selbSteps (hR : Unread R) (h : R s s') (bank : Byte) :
    SameOutcome R (selbSteps bank k s) (selbSteps bank k s') := by
  simp only [Machine.selbSteps, (hR.view h).cfg]
  split
  · exact .ite (.next (hR.respond _ _ h)) (.next (hR.toStep _ h))
  · exact .next (hR.present _ _ h)
  · exact .refused _

theorem Unread.rdrSteps (hR : Unread R) (h : R s s') (addr : Byte) :
    SameOutcome R (rdrSteps addr k s) (rdrSteps addr k s') := by
  simp only [Machine.rdrSteps, (hR.view h).cfg]
  split
  · exact .next (hR.present _ _ h)
  · exact .refused _

theorem Unread.wrrSteps (hR : Unread R) (h : R s s') (addr data : Byte) :
    SameOutcome R (wrrSteps addr data k s) (wrrSteps addr data k s') := by
  unfold Machine.wrrSteps
  split
  · exact .next (hR.present _ _ h)
  · exact .refused _

theorem Unread.rmwSteps (hR : Unread R) (h : R s s') (mask addr value : Byte) (shift : BitVec 3) :
    SameOutcome R (rmwSteps mask addr value shift k s) (rmwSteps mask addr value shift k s') := by
  simp only [Machine.rmwSteps, (hR.view h).cfg, (hR.view h).rbyte]
  split
  · exact .next (hR.present _ _ h)
  · exact .next (hR.toStep _ h)
  · exact .next (hR.present _ _ (hR.releaseByte h))
  · exact .refused _

theorem Unread.brdSteps (hR : Unread R) (h : R s s') (addr count : Byte) :
    SameOutcome R (brdSteps addr count k s) (brdSteps addr count k s') := by
  simp only [Machine.brdSteps, (hR.view h).cfg]
  split
  · exact .ite (.next (hR.respond _ _ h)) (.next (hR.toStep _ h))
  · exact .next (hR.present _ _ h)
  · exact .refused _

theorem Unread.cfgfSteps (hR : Unread R) (h : R s s') (format : Byte) :
    SameOutcome R (cfgfSteps format k s) (cfgfSteps format k s') := by
  simp only [Machine.cfgfSteps, (hR.view h).cfg, (hR.view h).rbyte]
  split
  · exact .ite (.next (hR.respond _ _ h)) (.next (hR.toStep _ h))
  · exact .next (hR.present _ _ h)
  · exact .next (hR.present _ _ h)
  · exact .next (hR.toStep _ h)
  · exact .next (hR.present _ _ (hR.releaseByte h))
  · split
    · exact .next (hR.present _ _ h)
    · exact .refused _
  · exact .next (hR.respond _ _ (hR.keeps h (.setFmt _)))
  · exact .refused _

theorem Unread.rdfSteps (hR : Unread R) (h : R s s') (fields : Presence) :
    SameOutcome R (rdfSteps fields k s) (rdfSteps fields k s') := by
  simp only [Machine.rdfSteps, (hR.view h).cfg, (hR.view h).fmt, (hR.view h).rx]
  split
  · exact .next (hR.present _ _ h)
  · exact .ite (.next (hR.respond _ _ h)) (.next (hR.toStep _ h))
  · split
    · exact .ite (.next (hR.toStep _ h)) (.next (hR.respond _ _ h))
    · exact .fault _
  · split
    · exact .next (hR.present _ _ h)
    · exact .fault _
  · exact .next (hR.respond _ _ h)
  · exact .refused _

theorem Unread.reservedSteps (hR : Unread R) (h : R s s') :
    SameOutcome R (reservedSteps k s) (reservedSteps k s') := by
  unfold Machine.reservedSteps
  split
  · exact .next (hR.respond _ _ h)
  · exact .refused _

theorem Unread.answered (hR : Unread R) (h : R s s') (i : Instr) (rx : Bytes) :
    SameOutcome R (answered i k rx s) (answered i k rx s') := by
  have hread {f f' : Byte → State} (hf : ∀ b, R (f b) (f' b)) : SameOutcome R
      (Machine.withReadByte rx fun b => .next (f b)) (Machine.withReadByte rx fun b => .next (f' b)) :=
    Unread.withReadByte rx fun b => .next (hf b)
  cases i <;> unfold Machine.answered
  case selb | wrr | brd =>
    simp only [selbAnswered, wrrAnswered, brdAnswered]
    split
    · exact .next (hR.respond _ _ h)
    · exact .refused _
  case rdr =>
    simp only [rdrAnswered]
    split
    · exact hread fun b => hR.respond _ _ h
    · exact .refused _
  case rmw =>
    simp only [rmwAnswered]
    split
    · exact hread fun b => hR.toStep _ (hR.latchByte b h)
    · exact .next (hR.respond _ _ h)
    · exact .refused _
  case cfgf =>
    simp only [cfgfAnswered]
    split
    · exact .next (hR.toStep _ h)
    · exact hread fun b => hR.toStep _ (hR.latchByte b h)
    · exact .next (hR.toStep _ h)
    · exact .next (hR.toStep _ h)
    · exact .refused _
  case rdf =>
    simp only [rdfAnswered]
    split
    · exact .next (hR.toStep _ h)
    · exact .next (hR.toStep _ h)
    · exact .refused _
  case reserved0 | reserved8F | spiRead | spiWrite => exact .refused _

/-! ## Steps -/

theorem Unread.exchange (hR : Unread R) (h : R s s') (i : Instr) :
    SameOutcome R (exchange (Machine.answered i k) s) (exchange (Machine.answered i k) s') := by
  simp only [Machine.exchange, (hR.view h).answers, (hR.view h).tx]
  split
  · exact .next h
  · exact .next (hR.respond _ _ (hR.keeps h (.endXfer _)))
  · exact .ite (hR.answered (hR.keeps (hR.keeps h (.endXfer _)) (.receive _)) i _) (.fault _)

theorem Unread.runRequest (hR : Unread R) (h : R s s') {st : Nat → State → Result}
    (hst : ∀ k, SameOutcome R (st k s) (st k s')) :
    SameOutcome R (runRequest i st (Machine.answered i) s) (runRequest i st (Machine.answered i) s') := by
  simp only [Machine.runRequest, (hR.view h).seq, (hR.view h).req]
  split
  · exact .next (hR.keeps h (.accept _))
  · exact .ite (hst _) (.refused _)
  · exact .ite (hR.exchange h i) (.refused _)
  · exact .refused _

theorem Unread.runFrame (hR : Unread R) (h : R s s') (c : Byte) :
    SameOutcome R (runFrame c s) (runFrame c s') := by
  simp only [Machine.runFrame, (hR.view h).seq, (hR.view h).req, (hR.view h).tx]
  split
  · refine .ite ?_ (.refused _)
    split
    · exact hR.exchange h _
    · exact .refused _
  · exact .refused _

theorem Unread.exec (hR : Unread R) (h : R s s') (i : Instr) :
    SameOutcome R (exec i s) (exec i s') := by
  cases i with
  | selb bank => exact hR.runRequest h fun _ => hR.selbSteps h bank
  | rdr addr => exact hR.runRequest h fun _ => hR.rdrSteps h addr
  | wrr addr data => exact hR.runRequest h fun _ => hR.wrrSteps h addr data
  | rmw mask addr value shift => exact hR.runRequest h fun _ => hR.rmwSteps h mask addr value shift
  | brd addr count => exact hR.runRequest h fun _ => hR.brdSteps h addr count
  | cfgf format => exact hR.runRequest h fun _ => hR.cfgfSteps h format
  | rdf fields => exact hR.runRequest h fun _ => hR.rdfSteps h fields
  | reserved0 => exact hR.runRequest h fun _ => hR.reservedSteps h
  | reserved8F op => exact hR.runRequest h fun _ => hR.reservedSteps h
  | spiRead addr => exact hR.runFrame h _
  | spiWrite addr => exact hR.runFrame h _

theorem Unread.takeResponse (hR : Unread R) (h : R s s') :
    SameOutcome R (takeResponse s) (takeResponse s') := by
  simp only [Machine.takeResponse, (hR.view h).resp]
  split
  · exact .next (hR.keeps h (.take _))
  · exact .refused _

/-- What runs next is the same when the same word is on the request port. -/
theorem SameView.fetch (hv : SameView s s')
    (hw : s.seq = .idle → s'.program[s'.pc]? = s.program[s.pc]?) : fetch s' = fetch s := by
  unfold Machine.fetch
  rw [hv.seq, hv.req, hv.tx]
  split
  · rw [hw ‹_›]
  all_goals rfl

/-- A step cannot tell the two states apart when the same word is on the request port. -/
theorem Unread.step (hR : Unread R) (h : R s s')
    (hw : s.seq = .idle → s'.program[s'.pc]? = s.program[s.pc]?) (hn : step s = .next t) :
    ∃ t', step s' = .next t' ∧ R t t' := by
  refine SameOutcome.of_next (hn ▸ ?_)
  unfold Machine.step
  rw [(hR.view h).fetch hw]
  split
  · exact hR.exec h _
  · exact .next h
  · exact hR.takeResponse h
  · exact .refused _

end

/-! ## The program of a busy port -/

/-- The two states differ in their programs only, the second's being `ws`. -/
def OtherProgram (ws : List ReqWord) (s s' : State) : Prop := s' = { s with program := ws }

theorem otherProgram_unread (ws : List ReqWord) : Unread (OtherProgram ws) where
  view := by rintro s _ rfl; exact ⟨rfl, rfl, rfl, rfl, rfl, rfl, rfl, rfl, rfl⟩
  keeps := by
    rintro s _ f rfl hf
    cases hf <;> rfl

/-- Settles O16: the word at `pc` is read in `IDLE` only. -/
theorem busyPortTakesNothing : Obligations.BusyPortTakesNothing := by
  intro s t ws hbusy hn
  obtain ⟨t', ht, rfl⟩ := (otherProgram_unread ws).step rfl (fun h => absurd h hbusy) hn
  exact ht

/-! ## The records of the past -/

/-- The two states differ in their records only: the first's begin with `tr` and `rs`, the second's with
`tr'` and `rs'`, and they go on alike. -/
def OtherPast (tr tr' : List Transaction) (rs rs' : List Response) (s s' : State) : Prop :=
  ∃ newTr newRs, s.trace = tr ++ newTr ∧ s.responses = rs ++ newRs ∧
    s' = { s with trace := tr' ++ newTr, responses := rs' ++ newRs }

theorem otherPast_unread (tr tr' : List Transaction) (rs rs' : List Response) :
    Unread (OtherPast tr tr' rs rs') where
  view := by
    rintro s _ ⟨newTr, newRs, -, -, rfl⟩
    exact ⟨rfl, rfl, rfl, rfl, rfl, rfl, rfl, rfl, rfl⟩
  keeps := by
    rintro s _ f ⟨newTr, newRs, htr, hrs, rfl⟩ hf
    cases hf with
    | endXfer o =>
      refine ⟨newTr ++ [⟨s.tx, o⟩], newRs, by simp [htr], hrs, ?_⟩
      rw [← List.append_assoc]
      rfl
    | take r => exact ⟨newTr, newRs ++ [r], htr, by simp [hrs], by simp [List.append_assoc]⟩
    | _ => exact ⟨newTr, newRs, htr, hrs, rfl⟩

/-- Settles O17: a step appends to the records and reads nothing of them. -/
theorem pastIsNotRemembered : Obligations.PastIsNotRemembered := by
  intro s t tr rs hn
  have h : OtherPast s.trace tr s.responses rs s { s with trace := tr, responses := rs } :=
    ⟨[], [], by simp, by simp, by simp⟩
  obtain ⟨t', ht, newTr, newRs, htr, hrs, rfl⟩ := (otherPast_unread _ _ _ _).step h (fun _ => rfl) hn
  exact ⟨newTr, newRs, htr, hrs, ht⟩

/-! ## The bytes past the lists -/

/-- The two states differ in their buffers only, which hold the same lists. -/
def OtherBuffers (s s' : State) : Prop :=
  ∃ tb rb, s' = { s with txbuf := tb, rxbuf := rb } ∧ s'.tx = s.tx ∧ s'.rx = s.rx

/-- A list is put into a buffer with bytes past it that are drawn anew (log 25). -/
theorem otherBuffers_unread : Unread OtherBuffers where
  view := by
    rintro s _ ⟨tb, rb, rfl, htx, hrx⟩
    exact ⟨rfl, rfl, rfl, rfl, rfl, rfl, rfl, htx, hrx⟩
  keeps := by
    rintro s _ f ⟨tb, rb, rfl, htx, hrx⟩ hf
    cases hf with
    | present | respond => exact ⟨_, _, rfl, rfl, rfl⟩
    | endXfer o => exact ⟨(endXfer o s).txbuf, rb, by simp only [endXfer, htx], rfl, hrx⟩
    | receive rx => exact ⟨tb, _, rfl, htx, rfl⟩
    | _ => exact ⟨tb, rb, rfl, htx, hrx⟩

/-- Settles O50: only the lists that the buffers hold are read. -/
theorem bytesPastTheListsAreNotRead : Obligations.BytesPastTheListsAreNotRead := by
  intro s t tb rb hn htx hrx
  obtain ⟨u, hu, _, _, rfl, htx', hrx'⟩ :=
    otherBuffers_unread.step ⟨tb, rb, rfl, htx, hrx⟩ (fun _ => rfl) hn
  exact ⟨_, hu, rfl, htx', hrx'⟩

end Sys2Proof.Machine
end

section
/-! What the observed transactions tell of the device's bank (20_memory R52, 70_reset_and_hazards R188):
O47. -/

namespace Sys2Proof.Machine

variable {s t : State} {i : Instr} {k : Nat} {o : Answer} {rest : List Answer}

/-! ## The command byte of a write frame -/

@[simp] theorem deviceAddr_setWidth (a : Addr) : deviceAddr (a.setWidth 8) = a := by
  simp [deviceAddr]

/-- A command byte with the read bit clear is its own address (30_encoding R76). -/
theorem setWidth_deviceAddr {c : Byte} (h : c.getLsbD 7 = false) : (deviceAddr c).setWidth 8 = c := by
  revert c; decide

/-! ## The effect of one transaction -/

section
variable (p : Params) (resets : SoftReset) (v : BankView)

/-- The view is carried from one transaction to the next. -/
theorem deviceBank_append (l : List Transaction) (x : Transaction) :
    deviceBank p resets (l ++ [x]) = bankAfter p resets (deviceBank p resets l) x := by
  simp [deviceBank]

theorem bankSelected_ok (d : Byte) (rx : Bytes) :
    bankSelected d (.ok rx) = if d ≤ 4#8 then .known d else .unknown := by
  rw [← ite_not]
  simp [bankSelected, bankRefused]

/-- A write to the bank-select register alone decides the view. -/
theorem bankAfter_select (d : Byte) (o : Answer) :
    bankAfter p resets v ⟨[p.bankSelAddr.setWidth 8, d], o⟩ = bankSelected d o := by
  simp [bankAfter]

theorem bankAfter_write {a : Addr} (ha : a ≠ p.bankSelAddr) (d : Byte) (o : Answer) :
    bankAfter p resets v ⟨[a.setWidth 8, d], o⟩ = bankAfterWrite resets a d v := by
  simp [bankAfter, ha]

theorem bankAfterWrite_of_not_resets {resets : SoftReset} {a : Addr} {d : Byte}
    (h : ∀ bank, resets bank a d = false) : bankAfterWrite resets a d v = v := by
  cases v <;> simp [bankAfterWrite, h]

/-- A transaction that writes neither the bank-select register nor a soft reset leaves the view: it is no
frame of two bytes, or a read, or a write at another address. -/
theorem bankAfter_other {tx : Bytes} (o : Answer)
    (hsel : tx.head? ≠ some (p.bankSelAddr.setWidth 8))
    (hres : ∀ (bank : Byte) (a : Addr) (d : Byte), tx = [a.setWidth 8, d] → resets bank a d = false) :
    bankAfter p resets v ⟨tx, o⟩ = v := by
  match tx with
  | [] | [_] | _ :: _ :: _ :: _ => rfl
  | [c, d] =>
    cases hc : c.getLsbD 7 with
    | true => simp only [bankAfter, hc, if_true]
    | false =>
      have hw := setWidth_deviceAddr hc
      have ha : deviceAddr c ≠ p.bankSelAddr := by
        intro ha
        exact hsel (by rw [← ha, hw]; rfl)
      rw [← hw, bankAfter_write p resets v ha]
      exact bankAfterWrite_of_not_resets v fun bank => hres bank _ d (by rw [hw])

end

/-! ## The effect of an instruction -/

/-- An instruction that uses an answer carries the view on by the transaction on the port. -/
theorem deviceBank_of_answered (resets : SoftReset) (he : exec i s = .next t) (h : s.seq = .xfer k)
    (ha : s.answers = o :: rest) : deviceBank t.cfg resets t.trace =
      bankAfter s.cfg resets (deviceBank s.cfg resets s.trace) ⟨s.tx, o⟩ := by
  obtain ⟨-, htr, -, -, hcfg, -⟩ := (exec_move he).uses_answer h ha
  rw [htr, hcfg, deviceBank_append]

/-- A write to the bank-select register, by the answer. -/
theorem deviceBank_of_select (resets : SoftReset) {d : Byte} (he : exec i s = .next t)
    (h : s.seq = .xfer k) (ha : s.answers = o :: rest)
    (htx : s.tx = [s.cfg.bankSelAddr.setWidth 8, d]) :
    deviceBank t.cfg resets t.trace = bankSelected d o := by
  rw [deviceBank_of_answered resets he h ha, htx, bankAfter_select]

/-! ## SELB -/

/-- SELB with its write of `bank` on the transport port (40_register_access R91). -/
def selbPresented (bank : Byte) (s : State) : State :=
  present 2 (writeFrame s.cfg.bankSelAddr bank) (toStep 2 (accept (.selb bank) s))

@[simp] theorem selbPresented_seq (bank : Byte) (s : State) : (selbPresented bank s).seq = .xfer 2 := rfl
@[simp] theorem selbPresented_cfg (bank : Byte) (s : State) : (selbPresented bank s).cfg = s.cfg := rfl
@[simp] theorem selbPresented_answers (bank : Byte) (s : State) :
    (selbPresented bank s).answers = s.answers := rfl

theorem selbPresented_tx (bank : Byte) (s : State) :
    (selbPresented bank s).tx = [s.cfg.bankSelAddr.setWidth 8, bank] := by
  rw [selbPresented, present_tx _ _ (by simp), writeFrame, commandByte_write]

/-- From `IDLE`, SELB of a bank that passes its check presents its write in three transitions. -/
theorem selb_presents {bank : Byte} (h : s.seq = .idle) (hb : bank ≤ 4#8) :
    execPath (.selb bank) s
      [accept (.selb bank) s, toStep 2 (accept (.selb bank) s), selbPresented bank s] := by
  have hc : bankRefused bank = false := by simpa [bankRefused] using hb
  refine ⟨exec_idle rfl h, ?_, selb_step (k := 2) bank rfl rfl, trivial⟩
  rw [selb_step (k := 1) bank rfl rfl]
  simp [selbSteps, hc]

/-- The write of SELB is answered, and the request ends. -/
theorem selb_answered (bank : Byte) (ha : s.answers = o :: rest) (hfit : answerFits o 2) :
    ∃ t, exec (.selb bank) (selbPresented bank s) = .next t := by
  rw [← selbPresented_answers bank] at ha
  rw [exec_xfer (k := 2) rfl rfl rfl]
  cases o with
  | fail => exact ⟨_, exchange_fail ha⟩
  | ok rx =>
    rw [exchange_ok ha (by rw [selbPresented_tx]; exact hfit)]
    exact ⟨_, rfl⟩

/-! ## The statement -/

/-- Settles O47, clause by clause: the view after an instruction is the view before it, carried on by the
transaction that the instruction completes, if any. -/
theorem busTellsTheDeviceBank : Obligations.BusTellsTheDeviceBank := by
  intro resets s
  refine ⟨?_, ?_, ?_, ?_⟩
  · intro bank o rest h hb ha hfit
    obtain ⟨t, he⟩ := selb_answered bank ha hfit
    obtain ⟨h1, h2, h3, -⟩ := selb_presents h hb
    obtain ⟨hcfg, -⟩ := (exec_move he).keepsSession
    have ht := deviceBank_of_select resets he (selbPresented_seq bank s) ha (selbPresented_tx bank s)
    refine ⟨_, _, _, t, ⟨h1, h2, h3, he, trivial⟩, ?_⟩
    rw [hcfg, selbPresented_cfg] at ht
    cases o with
    | ok rx => rw [ht, bankSelected_ok, if_pos hb]
    | fail => exact ht
  · intro i t k d o rest he h ha htx
    have ht := deviceBank_of_select resets he h ha htx
    cases o with
    | ok rx => rw [ht, bankSelected_ok]
    | fail => exact ht
  · intro i t he hsel hres
    have m := exec_move he
    obtain ⟨hcfg, -⟩ := m.keepsSession
    obtain ⟨htr, -⟩ | ⟨k, o, rest, h, ha⟩ := m.quiet_or_answered
    · rw [htr, hcfg]
    · rw [deviceBank_of_answered resets he h ha, bankAfter_other _ _ _ o hsel hres]
  · intro i t k bank a d o rest he h ha htx hsel hknown hres
    rw [deviceBank_of_answered resets he h ha, htx, bankAfter_write _ _ _ hsel, hknown]
    simp [bankAfterWrite, hres]

end Sys2Proof.Machine
end

section
/-! The request word, the command byte and the frames: O21, O22, O23, O24, O25, O26 (30_encoding R70 to R78). -/

namespace Sys2Proof.Machine

/-! ## Decode and encode -/

/-- Settles O22, one round trip per instruction. -/
theorem decodeInvertsEncode : Obligations.DecodeInvertsEncode := by
  intro i
  cases i with
  | selb bank => exact Laws.RoundTrip.selb bank
  | rdr addr => exact Laws.RoundTrip.rdr addr
  | wrr addr data => exact Laws.RoundTrip.wrr addr data
  | rmw mask addr value shift => exact Laws.RoundTrip.rmw mask addr value shift
  | brd addr count => exact Laws.RoundTrip.brd addr count
  | cfgf format => exact Laws.RoundTrip.cfgf format
  | rdf present => exact Laws.RoundTrip.rdf present
  | reserved0 => exact Laws.RoundTrip.reserved0
  | reserved8F op => exact Laws.RoundTrip.reserved8F op
  | spiRead addr => exact Laws.RoundTrip.spiRead addr
  | spiWrite addr => exact Laws.RoundTrip.spiWrite addr

/-- Settles O21, by evaluating the decoders on the words. -/
theorem workedWordsDecode : Obligations.WorkedWordsDecode := by
  unfold Obligations.WorkedWordsDecode
  decide

/-! ## Opcodes (R71, R74) -/

/-- A word decodes to a reserved request exactly if its opcode is 0x0 or 0x8 to 0xF: each other opcode has
its own constructor. -/
theorem decodeRequest_reserved_iff (w : ReqWord) :
    (decodeRequest w = .reserved0 ∨ ∃ op, decodeRequest w = .reserved8F op) ↔
      (fieldOP w = 0 ∨ 8#4 ≤ fieldOP w) := by
  constructor
  · intro h
    by_contra hop
    obtain ⟨h0, h8⟩ : (fieldOP w).toNat ≠ 0 ∧ (fieldOP w).toNat < 8 := by
      simpa [← BitVec.toNat_inj, BitVec.le_def] using hop
    unfold decodeRequest at h
    split at h
    case h_1 => contradiction
    case h_9 => simp only [imp_false] at *; omega
    all_goals simp at h
  · exact Or.imp decodeRequest_of_zero fun h => ⟨_, decodeRequest_of_reserved w h⟩

/-- Settles O24, by the opcode. -/
theorem everyWordDecodes : Obligations.EveryWordDecodes := fun w =>
  ⟨decodeRequest_isRequest w, decodeRequest_wellFormed w, decodeRequest_reserved_iff w⟩

/-! ## Ignored fields (R73) -/

/-- Two words with the same opcode that agree on the fields their request reads are the same request. -/
theorem decodeRequest_congr {w w' : ReqWord} (hop : fieldOP w = fieldOP w')
    (ha : 1 ≤ (fieldOP w).toNat → (fieldOP w).toNat ≤ 6 → fieldA w = fieldA w')
    (hb : (fieldOP w).toNat = 3 ∨ (fieldOP w).toNat = 4 ∨ (fieldOP w).toNat = 5 →
      fieldB w = fieldB w')
    (hc : (fieldOP w).toNat = 4 → fieldC w = fieldC w' ∧ fieldSH w = fieldSH w')
    (hp : (fieldOP w).toNat = 7 → (fieldC w).extractLsb' 0 6 = (fieldC w').extractLsb' 0 6) :
    decodeRequest w = decodeRequest w' := by
  unfold decodeRequest
  rw [← hop]
  split
  case h_1 => rfl
  case h_2 h | h_3 h | h_7 h => rw [ha (by omega) (by omega)]
  case h_4 h | h_6 h => rw [ha (by omega) (by omega), hb (by omega)]
  case h_5 h =>
    obtain ⟨hC, hSH⟩ := hc h
    rw [ha (by omega) (by omega), hb (by omega), hC, hSH]
  case h_8 h => rw [hp h]
  case h_9 => rfl

/-- The mask of an assembled RDF word has zeros in bits 7:6 of `C`. -/
theorem setWidth_presence_high (p : Presence) : (p.setWidth 8).extractLsb' 6 2 = 0 := by
  revert p; decide

/-- Settles O23: the decoder reads no other field, and an assembled word is made of its fields. -/
theorem ignoredBitsHaveNoEffect : Obligations.IgnoredBitsHaveNoEffect := by
  refine ⟨fun w w' => decodeRequest_congr, fun l w h => ?_⟩
  cases l <;> obtain ⟨-, ⟨⟩⟩ := Option.ite_none_right_eq_some.1 h <;> simp [setWidth_presence_high]

/-! ## Command bytes and frames (R75 to R78) -/

/-- With bit 7 clear a command byte begins a write frame at its low 7 bits. -/
theorem decodeCommand_write {c : Byte} (h : c < 0x80#8) : decodeCommand c = .spiWrite (deviceAddr c) := by
  revert c; decide

/-- With bit 7 set a command byte begins a read frame at its low 7 bits. -/
theorem decodeCommand_read {c : Byte} (h : 0x80#8 ≤ c) : decodeCommand c = .spiRead (deviceAddr c) := by
  revert c; decide

/-- Settles O25, from the two directions of the command byte. -/
theorem commandByteLayout : Obligations.CommandByteLayout := by
  refine ⟨fun r address => ?_, fun _ => decodeCommand_write, fun _ => decodeCommand_read,
    encode_decodeCommand⟩
  cases r with
  | true => exact commandByte_read_addr address
  | false => simpa using commandByte_write_addr address

/-- An address has bit 7 clear, so it is a write's command byte. -/
theorem setWidth_addr_lt (a : Addr) : (a.setWidth 8 : Byte) < 0x80#8 := by
  revert a; decide

/-- Settles O26, from the two command bytes. -/
theorem frameBytes : Obligations.FrameBytes := by
  refine fun p a => ⟨fun n => ⟨?_, readFrame_length p a n⟩, fun d => ⟨?_, setWidth_addr_lt a⟩,
    fun rx => rfl⟩
  · rw [readFrame, commandByte_read]
  · rw [writeFrame, commandByte_write]

end Sys2Proof.Machine
end

section
/-! The assembler's lines and the pseudo-instructions: O27, O28 (30_encoding R83, R84). -/

namespace Sys2Proof.Machine

/-! ## Assembly lines (R83) -/

/-- A line with a check of its operands, read back: the check passes and its word decodes to the request,
or the line is refused. -/
theorem map_decodeRequest_ite {c : Bool} {P : Prop} [Decidable P] {w : ReqWord} {i : Instr}
    (hc : c = true ↔ P) (hw : decodeRequest w = i) :
    (if c then some w else none).map decodeRequest = if P then some i else none := by
  by_cases hP : P
  · simp [hP, hc.2 hP, hw]
  · simp [hP, mt hc.1 hP]

theorem fits_iff (x n : Nat) : fits x n = true ↔ x < 2 ^ n := by simp [fits]

/-- Settles O27, line by line: the check is that every operand fits, the word the encoding of the request. -/
theorem assemblerWords : Obligations.AssemblerWords := by
  refine ⟨fun bank => ?_, fun addr => ?_, fun addr data => ?_, fun mask addr value shift => ?_,
    fun addr count => ?_, fun format => ?_, fun fields => ?_⟩
  · exact map_decodeRequest_ite (fits_iff bank 8) (Laws.RoundTrip.selb _ rfl)
  · exact map_decodeRequest_ite (fits_iff addr 8) (Laws.RoundTrip.rdr _ rfl)
  · exact map_decodeRequest_ite (by simp [fits_iff]) (Laws.RoundTrip.wrr _ _ rfl)
  · exact map_decodeRequest_ite (by simp [fits_iff, and_assoc]) (Laws.RoundTrip.rmw _ _ _ _ rfl)
  · exact map_decodeRequest_ite (by simp [fits_iff]) (Laws.RoundTrip.brd _ _ rfl)
  · exact map_decodeRequest_ite (fits_iff format 8) (Laws.RoundTrip.cfgf _ rfl)
  · exact map_decodeRequest_ite (fits_iff fields 8) (Laws.RoundTrip.rdf _ rfl)

/-! ## The requester's arithmetic (R84) -/

theorem fullScale_toNat (b : Byte) : (fullScale b).toNat = b.toNat / 32 := by
  have := b.isLt
  simp [fullScale, BitVec.extractLsb'_toNat, Nat.shiftRight_eq_div_pow]
  omega

theorem sample_toNat (high low : Byte) : (sample high low).toNat = 256 * high.toNat + low.toNat := by
  rw [sample, BitVec.toNat_append, ← Nat.shiftLeft_add_eq_or_of_lt low.isLt, Nat.shiftLeft_eq,
    Nat.mul_comm]

/-- Settles O28: the expansions are the rows of R84, the arithmetic is on byte values. -/
theorem pseudoInstructions : Obligations.PseudoInstructions :=
  ⟨fun _ _ => rfl, fun _ _ => rfl, fun _ => rfl, fun _ => rfl, fullScale_toNat,
    fun _ _ _ _ _ _ => ⟨_, _, _, rfl, sample_toNat _ _, sample_toNat _ _, sample_toNat _ _⟩⟩

end Sys2Proof.Machine
end

section
/-! The frame in flight and the request that presented it: O45 (30_encoding R75, R76). -/

namespace Sys2Proof.Machine

/-- In `XFER(k)` the frame on the port, whichever of the two it is, runs as the request in progress. -/
theorem runFrame_eq_exec {s : State} {i : Instr} {k : Nat} {c : Byte} (hq : i.isRequest = true)
    (h : s.seq = .xfer k) (hr : s.req = some i) (hc : s.tx.head? = some c) :
    runFrame c s = exec i s :=
  (runFrame_eq h hc hr).trans (exec_xfer hq h hr).symm

/-- Settles O45: both are the exchange of the transaction on the port. -/
theorem frameAndRequestAgree : Obligations.FrameAndRequestAgree := by
  intro i s k a hq h hr
  rw [← commandByte_read, ← commandByte_write]
  exact ⟨runFrame_eq_exec hq h hr, runFrame_eq_exec hq h hr⟩

end Sys2Proof.Machine
end

section
/-! The requester runs a pseudo-instruction: O48, O49 (30_encoding R84). -/

namespace Sys2Proof.Machine

variable {s t u v : State} {i : Instr} {k n : Nat} {w : ReqWord} {o : Answer} {rest : List Answer}
  {r : Response} {tr : List Transaction}

/-! ## A request while its response is awaited -/

/-- What a request that was answered leaves: its response taken, its transactions observed with the oldest
answers, the RAC waiting with CS high (10_state R25, R26, R33). -/
structure RequestDone (r : Response) (tr : List Transaction) (s t : State) : Prop where
  seq : t.seq = .idle
  cs : t.cs = .high
  resp : t.resp = none
  pc : t.pc = s.pc + 1
  responses : t.responses = s.responses ++ [r]
  trace : t.trace = s.trace ++ tr
  answers : t.answers = s.answers.drop tr.length
  fmt : t.fmt = s.fmt
  cfg : t.cfg = s.cfg

/-- The requester that waits in `s`, at most `n` steps, takes response `r` after the transactions `tr`. -/
def Completes (n : Nat) (r : Response) (tr : List Transaction) (s : State) : Prop :=
  ∃ t, awaitResponse n s = .next t ∧ RequestDone r tr s t

/-- In `RESPOND` the response is taken. -/
theorem Completes.take (h : s.seq = .respond) (hr : s.resp = some r) (hcs : s.cs = .high) :
    Completes (n + 1) r [] s := by
  refine ⟨_, awaitResponse_taken (step_taken h hr) (by simp), ?_⟩
  constructor <;> simp [hcs]

/-- A step with no transaction completes. -/
theorem Completes.advance {j : Nat} (h : s.seq = .step k) (hr : s.req = some i)
    (he : exec i s = .next (toStep j s)) (hc : Completes n r tr (toStep j s)) :
    Completes (n + 1) r tr s := by
  obtain ⟨t, ht, hd⟩ := hc
  exact ⟨t, (awaitResponse_wait ((step_step h hr).trans he) rfl).trans ht, { hd with }⟩

/-- The transaction on the port has its answer, which the request uses. -/
theorem Completes.exchange (h : s.seq = .xfer k) (hr : s.req = some i) {c : Byte} {l : Bytes}
    (htx : s.tx = c :: l) (ha : s.answers = o :: rest) (hx : exchange (answered i k) s = .next t)
    (hc : Completes n r tr t) : Completes (n + 1) r (⟨c :: l, o⟩ :: tr) s := by
  obtain ⟨u, hu, hd⟩ := hc
  obtain ⟨-, htr, hans, hfmt, hcfg, -, hpc, hrs⟩ :=
    (exchange_move (i := i) h hr hx).uses_answer h ha
  refine ⟨u, (awaitResponse_wait ((step_xfer h htx hr).trans hx) hpc).trans hu, hd.seq, hd.cs, hd.resp,
    hpc ▸ hd.pc, hrs ▸ hd.responses, ?_, ?_, hfmt ▸ hd.fmt, hcfg ▸ hd.cfg⟩
  · simp [hd.trace, htr, htx]
  · simp [hd.answers, hans, ha]

/-- A transaction is presented and answered. -/
theorem Completes.present {c : Byte} {l : Bytes} (h : s.seq = .step k) (hr : s.req = some i)
    (he : exec i s = .next (present k (c :: l) v)) (hv : v = s ∨ v = releaseByte s)
    (hl : l.length < 256) (ha : s.answers = o :: rest)
    (hx : Machine.exchange (answered i k) (present k (c :: l) v) = .next t)
    (hc : Completes n r tr t) : Completes (n + 2) r (⟨c :: l, o⟩ :: tr) s := by
  have htx : (Machine.present k (c :: l) v).tx = c :: l := present_tx v k hl
  have hrv : v.req = some i := by obtain rfl | rfl := hv <;> exact hr
  have hav : v.answers = o :: rest := by obtain rfl | rfl := hv <;> exact ha
  obtain ⟨u, hu, hd⟩ := Completes.exchange (s := Machine.present k _ v) rfl hrv htx hav hx hc
  have hstep := (step_step h hr).trans he
  obtain rfl | rfl := hv <;> exact ⟨u, (awaitResponse_wait hstep rfl).trans hu, { hd with }⟩

/-- The transaction just presented is answered Ok. -/
theorem exchange_present_ok {f : Bytes → State → Result} {tx rx : Bytes} (hl : tx.length ≤ 256)
    (ha : s.answers = .ok rx :: rest) (hrx : rx.length = tx.length) :
    exchange f (present k tx s) = f rx (receive rx (endXfer (.ok rx) (present k tx s))) :=
  exchange_ok (s := present k tx s) ha (by rw [present_tx s k hl, hrx])

/-! ## The requests of the pseudo-instructions -/

/-- SELB of a bank 0 to 4, whatever the outcome of its transaction (40_register_access R91). -/
theorem completes_selb {bank : Byte} (h : s.seq = .step 1) (hr : s.req = some (.selb bank))
    (hb : bank ≤ 4#8) (ha : s.answers = o :: rest) (hfit : answerFits o 2) :
    Completes 12 ⟨outcomeStatus o, .none⟩ [⟨writeFrame s.cfg.bankSelAddr bank, o⟩] s := by
  have hc : bankRefused bank = false := by simpa [bankRefused] using hb
  have he : exec (.selb bank) s = .next (toStep 2 s) := by
    rw [selb_step bank h hr]
    simp [selbSteps, hc]
  have hsel := selb_step (s := toStep 2 s) bank rfl hr
  refine .advance h hr he ?_
  cases o with
  | fail =>
    exact .present rfl hr hsel (.inl rfl) (by simp) ha (exchange_fail ha) (.take rfl rfl rfl)
  | ok rx =>
    exact .present rfl hr hsel (.inl rfl) (by simp) ha (exchange_present_ok (by simp) ha hfit)
      (.take rfl rfl rfl)

/-- RDR whose transaction is Ok (40_register_access R95). -/
theorem completes_rdr {addr b0 b : Byte} (h : s.seq = .step 1) (hr : s.req = some (.rdr addr))
    (ha : s.answers = .ok [b0, b] :: rest) :
    Completes 12 ⟨.ok, .byte b⟩ [⟨readFrame s.cfg (deviceAddr addr) 1, .ok [b0, b]⟩] s :=
  .present h hr (rdr_step addr h hr) (.inl rfl) (by simp) ha
    (exchange_present_ok (by simp) ha rfl) (.take rfl rfl rfl)

/-- BRD of at least 2 bytes whose transaction is Ok (40_register_access R110). -/
theorem completes_brd {addr count b0 : Byte} {data : Bytes} (h : s.seq = .step 1)
    (hr : s.req = some (.brd addr count)) (hcount : countRefused count = false)
    (ha : s.answers = .ok (b0 :: data) :: rest) (hdata : data.length = count.toNat) :
    Completes 12 ⟨.ok, .bytes data⟩
      [⟨readFrame s.cfg (deviceAddr addr) count.toNat, .ok (b0 :: data)⟩] s := by
  have he : exec (.brd addr count) s = .next (toStep 2 s) := by
    rw [brd_step addr count h hr]
    simp [brdSteps, hcount]
  have hlen : (readFrame s.cfg (deviceAddr addr) count.toNat).length ≤ 256 := by
    have := count.isLt
    simp; omega
  refine .advance h hr he (.present rfl hr (brd_step (s := toStep 2 s) addr count rfl hr) (.inl rfl)
    hlen ha (exchange_present_ok hlen ha (by simp [hdata])) (.take rfl rfl rfl))

/-- RMW whose two transactions are Ok (40_register_access R101). -/
theorem completes_rmw {mask addr value b0 b : Byte} {shift : BitVec 3} {r3 : Bytes}
    (h : s.seq = .step 1) (hr : s.req = some (.rmw mask addr value shift))
    (ha : s.answers = .ok [b0, b] :: .ok r3 :: rest) (hr3 : r3.length = 2) :
    Completes 12 ⟨.ok, .none⟩ [⟨readFrame s.cfg (deviceAddr addr) 1, .ok [b0, b]⟩,
      ⟨writeFrame (deviceAddr addr) (rmwByte b mask value shift), .ok r3⟩] s := by
  have ha3 : s.answers.drop 1 = .ok r3 :: rest := by simp [ha]
  refine .present h hr (rmw_step mask addr value shift h hr) (.inl rfl) (by simp) ha
    (exchange_present_ok (by simp) ha rfl) ?_
  refine .advance (j := 3) rfl hr (rmw_step (k := 2) mask addr value shift rfl hr) ?_
  exact .present rfl hr (rmw_step (k := 3) mask addr value shift rfl hr) (.inr rfl) (by simp) ha3
    (exchange_present_ok (by simp) ha3 hr3) (.take rfl rfl rfl)

/-! ## One request after the other -/

/-- A word presented in `IDLE` is taken, and the request it decodes to runs. -/
theorem issue_of_completes (h : s.seq = .idle) (hw : decodeRequest w = i)
    (hc : Completes 12 r tr (accept i { s with program := placeWord w s })) :
    ∃ t, issue w s = .next t ∧ RequestDone r tr s t := by
  subst hw
  obtain ⟨t, ht, hd⟩ := hc
  have hstep := step_idle (s := { s with program := placeWord w s }) h (placeWord_at w s)
  have haccept := hstep.trans (exec_idle (decodeRequest_isRequest w) h)
  exact ⟨t, (awaitResponse_wait haccept rfl).trans ht, { hd with }⟩

theorem RequestDone.answeredOk_eq (hd : RequestDone r tr s t) :
    answeredOk s t = decide (r.status = .ok) := by
  simp [answeredOk, hd.pc, hd.responses]

/-- With no word after it a request ends the sequence, whatever its response. -/
theorem issueAll_last (h : issue w s = .next t) : issueAll [w] s = .next t := by
  cases ho : answeredOk s t with
  | true => exact issueAll_ok h ho
  | false => exact issueAll_stop h ho

/-- The bank select that begins every pseudo-instruction, in `IDLE`. -/
theorem issue_bankSelect (h : s.seq = .idle) (hw : decodeRequest w = .selb 0)
    (ha : s.answers = o :: rest) (hfit : answerFits o 2) :
    ∃ t, issue w s = .next t ∧ RequestDone ⟨outcomeStatus o, .none⟩
      [⟨[s.cfg.bankSelAddr.setWidth 8, 0x00#8], o⟩] s t := by
  have hc := issue_of_completes h hw (completes_selb rfl rfl (by decide) ha hfit)
  rwa [writeFrame, commandByte_write] at hc

/-! ## The words of a pseudo-instruction -/

theorem assembleAll_cons {l : AsmLine} {ls : List AsmLine} {ws : List ReqWord}
    (h : assembleAll (l :: ls) = some ws) :
    ∃ w ws', assemble l = some w ∧ assembleAll ls = some ws' ∧ ws = w :: ws' := by
  unfold assembleAll at h
  split at h
  · exact ⟨_, _, ‹_›, ‹_›, (Option.some.inj h).symm⟩
  · cases h

/-- The first request of a pseudo-instruction selects bank 0. -/
theorem expand_cons (p : Pseudo) : ∃ l, expand p = [.selb 0, l] := by
  cases p <;> exact ⟨_, rfl⟩

theorem decodeRequest_of_assemble {l : AsmLine} (hl : (assemble l).map decodeRequest = some i)
    (hw : assemble l = some w) : decodeRequest w = i := by
  simpa [hw] using hl

theorem assemble_bankSelect : (assemble (.selb 0)).map decodeRequest = some (.selb 0) :=
  assemblerWords.1 0

/-- Settles O48: the failed bank select takes its response, which is not OK, so the loop stops there. -/
theorem pseudoStopsAtTheFirstFailure : Obligations.PseudoStopsAtTheFirstFailure := by
  intro p ws s rest h hws ha
  obtain ⟨l, hp⟩ := expand_cons p
  have hwords := hws
  rw [hp] at hwords
  obtain ⟨w, ws', hw, -, rfl⟩ := assembleAll_cons hwords
  obtain ⟨t, ht, hd⟩ := issue_bankSelect h (decodeRequest_of_assemble assemble_bankSelect hw) ha trivial
  refine ⟨t, ?_, hd.seq, hd.pc, hd.responses, hd.cs, hd.resp, hd.trace, ?_, hd.fmt, hd.cfg⟩
  · rw [runPseudo, hws, Option.map_some, issueAll_stop ht hd.answeredOk_eq]
  · simpa [ha] using hd.answers

/-- A pseudo-instruction whose bank select is Ok runs its second request from the state the first leaves. -/
theorem runPseudo_second {p : Pseudo} {l : AsmLine} {r1 : Bytes} (hp : expand p = [.selb 0, l])
    (hl : (assemble l).map decodeRequest = some i) (h : s.seq = .idle) (hr1 : r1.length = 2)
    (ha : s.answers = .ok r1 :: rest)
    (hc : ∀ u, u.seq = .step 1 → u.req = some i → u.answers = rest → u.cfg = s.cfg →
      Completes 12 r tr u) :
    ∃ t, runPseudo p s = some (.next t) ∧ t.seq = .idle ∧ t.pc = s.pc + 2 ∧
      t.responses = s.responses ++ [⟨.ok, .none⟩, r] ∧
      t.trace = s.trace ++ ⟨[s.cfg.bankSelAddr.setWidth 8, 0x00#8], .ok r1⟩ :: tr ∧
      t.answers = rest.drop tr.length ∧ t.fmt = s.fmt := by
  obtain ⟨w0, hw0, hd0⟩ := Option.map_eq_some_iff.1 assemble_bankSelect
  obtain ⟨w, hw, hd⟩ := Option.map_eq_some_iff.1 hl
  obtain ⟨u, hu, hdu⟩ := issue_bankSelect h hd0 ha hr1
  have hau : u.answers = rest := by simpa [ha] using hdu.answers
  obtain ⟨t, ht, hdt⟩ := issue_of_completes hdu.seq hd (hc _ rfl rfl hau hdu.cfg)
  refine ⟨t, ?_, hdt.seq, ?_, ?_, ?_, hau ▸ hdt.answers, hdt.fmt.trans hdu.fmt⟩
  · have hws : assembleAll (expand p) = some [w0, w] := by simp [hp, assembleAll, hw0, hw]
    rw [runPseudo, hws, Option.map_some, issueAll_ok hu hdu.answeredOk_eq, issueAll_last ht]
  · rw [hdt.pc, hdu.pc]
  · simp [hdt.responses, hdu.responses, outcomeStatus]
  · simp [hdt.trace, hdu.trace]

/-- The byte that SETFS writes: bits [7:5] from `v`, the others as read. -/
theorem rmwByte_setfs (b v : Byte) : rmwByte b 0x07#8 v 5#3 = (b &&& 0x1F#8) ||| (v <<< 5) := by
  simp [rmwByte, shl8]

/-- The byte that SETODR writes: `v` over the high half of the byte read. -/
theorem rmwByte_setodr (b v : Byte) : rmwByte b 0x0F#8 v 0#3 = (b &&& 0xF0#8) ||| v := by
  simp [rmwByte, shl8]

theorem readFrame_addr (p : Params) (A : Byte) (n : Nat) :
    readFrame p (deviceAddr A) n = (0x80#8 ||| (A &&& 0x7F#8)) :: List.replicate n p.dummyTx := by
  rw [readFrame, commandByte_read_addr]

theorem writeFrame_addr (A d : Byte) : writeFrame (deviceAddr A) d = [A &&& 0x7F#8, d] := by
  rw [writeFrame, commandByte_write_addr]

/-- The line of an RMW whose operands fit. -/
theorem assemble_rmw {mask addr value shift : Nat} (hm : mask < 256) (haddr : addr < 256)
    (hv : value < 256) (hsh : shift < 8) : (assemble (.rmw mask addr value shift)).map decodeRequest =
      some (.rmw (BitVec.ofNat 8 mask) (BitVec.ofNat 8 addr) (BitVec.ofNat 8 value)
        (BitVec.ofNat 3 shift)) := by
  obtain ⟨-, -, -, hrmw, -⟩ := assemblerWords
  rw [hrmw, if_pos ⟨hm, haddr, hv, hsh⟩]

/-- Settles O49: the second request of each pseudo-instruction completes. -/
theorem pseudoRunsItsRequests : Obligations.PseudoRunsItsRequests := by
  intro s r1 h hr1
  obtain ⟨-, hrdr, -, -, hbrd, -⟩ := assemblerWords
  refine ⟨fun cfg v b0 b r3 rest hcfg hv ha hr3 => ⟨?_, ?_⟩, fun cfg b0 b rest hcfg ha => ?_,
    fun base b0 data rest hbase ha hdata => ?_⟩
  · have hl := assemble_rmw (mask := 0x07) (shift := 5) (by omega) hcfg hv (by omega)
    have hrun := runPseudo_second (p := .setfs cfg v) rfl hl h hr1 ha
      fun u hu hru hau hcu => hcu ▸ completes_rmw hu hru hau hr3
    simpa [readFrame_addr, writeFrame_addr, rmwByte_setfs] using hrun
  · have hl := assemble_rmw (mask := 0x0F) (shift := 0) (by omega) hcfg hv (by omega)
    have hrun := runPseudo_second (p := .setodr cfg v) rfl hl h hr1 ha
      fun u hu hru hau hcu => hcu ▸ completes_rmw hu hru hau hr3
    simpa [readFrame_addr, writeFrame_addr, rmwByte_setodr] using hrun
  · have hl := (hrdr cfg).trans (if_pos hcfg)
    have hrun := runPseudo_second (p := .getfs cfg) rfl hl h hr1 ha
      fun u hu hru hau hcu => hcu ▸ completes_rdr hu hru hau
    simpa [readFrame_addr] using hrun
  · have hl := (hbrd base 6).trans (if_pos ⟨hbase, by omega⟩)
    have hrun := runPseudo_second (p := .rdxyz base) rfl hl h hr1 ha
      fun u hu hru hau hcu => hcu ▸ completes_brd hu hru rfl hau hdata
    simpa [readFrame_addr] using hrun

end Sys2Proof.Machine
end

section
/-! The register-access requests: what they write and the statuses they end with, the run of each, and the
law of the byte that RMW writes (40_register_access R90 to R112): O15, O20, O29, O30, O31, O32, O33, O34. -/

namespace Sys2Proof.Machine

variable {s t v : State} {i : Instr} {k : Nat} {o : Answer} {rest : List Answer} {tx : Bytes} {d : Data}
  {st : Status}

/-! ## A failed transaction (R90) -/

/-- Settles O15: the exchange of a transaction whose answer is Fail. -/
theorem failedTransactionEndsItsRequest : Obligations.FailedTransactionEndsItsRequest := by
  intro s rest hi hx ha
  obtain ⟨k, h⟩ := inXfer_iff.1 hx
  obtain ⟨i, -, -, hstep, -⟩ := hi.step_xfer h
  refine ⟨raise .commsFailure (endXfer .fail s), hstep.trans (exchange_fail ha), ?_⟩
  simp [keepsSession, ha]

/-! ## What the five requests write (R112) -/

/-- A request that is not just being taken runs only while it is the one in progress. -/
theorem exec_req (hq : i.isRequest = true) (he : exec i s = .next t) :
    (s.seq = .idle ∧ t = accept i s) ∨ s.req = some i := by
  cases i with
  | spiRead a | spiWrite a => cases hq
  | _ =>
    refine (runRequest_cases he).imp_right ?_
    rintro (⟨k, -, hr, -⟩ | ⟨k, -, hr, -⟩) <;> exact hr

/-- `RBYTE` is written by the requests that use it only. -/
theorem exec_rbyte (hq : i.isRequest = true) (hb : usesByte i = false) (he : exec i s = .next t) :
    t.rbyte = s.rbyte := by
  obtain ⟨-, rfl⟩ | hr := exec_req hq he
  · rfl
  · refine (exec_move he).rbyte_cases.resolve_right ?_
    rintro ⟨r, hr', hb'⟩
    obtain rfl := Option.some.inj (hr.symm.trans hr')
    simp [hb] at hb'

@[simp] theorem toStep_ne_raise (u w : State) : toStep k u ≠ raise st w :=
  fun h => Seq.noConfusion (congrArg State.seq h)

@[simp] theorem present_ne_raise (u w : State) : present k tx u ≠ raise st w :=
  fun h => Seq.noConfusion (congrArg State.seq h)

theorem raise_inj {st' : Status} (h : raise st' s = raise st s) : st' = st := by
  simpa using congrArg State.resp h

/-- A check raises the status it is made for. -/
theorem check_raises {c : Bool} {st' : Status}
    (h : (if c then .next (raise st' s) else .next (toStep k s) : Result) = .next (raise st s)) :
    st' = st := by
  split at h
  · exact raise_inj (Host.Outcome.next.inj h)
  · simp at h

theorem selbSteps_raises {bank : Byte} (h : selbSteps bank k s = .next (raise st s)) :
    .invalidArgument = st := by
  unfold selbSteps at h
  split at h
  · exact check_raises h
  all_goals simp at h

theorem brdSteps_raises {addr count : Byte} (h : brdSteps addr count k s = .next (raise st s)) :
    .invalidArgument = st := by
  unfold brdSteps at h
  split at h
  · exact check_raises h
  all_goals simp at h

/-- One of the requests of 40_register_access, in the words of R112's statement. -/
def RegisterAccess (i : Instr) : Prop :=
  (∃ b, i = .selb b) ∨ (∃ a, i = .rdr a) ∨ (∃ a d, i = .wrr a d) ∨
    (∃ m a v sh, i = .rmw m a v sh) ∨ ∃ a c, i = .brd a c

theorem RegisterAccess.isRequest (hi : RegisterAccess i) : i.isRequest = true := by
  obtain ⟨b, rfl⟩ | ⟨a, rfl⟩ | ⟨a, d, rfl⟩ | ⟨m, a, v, sh, rfl⟩ | ⟨a, c, rfl⟩ := hi <;> rfl

theorem RegisterAccess.ne_cfgf (hi : RegisterAccess i) (format : Byte) : i ≠ .cfgf format := by
  rintro rfl
  simp [RegisterAccess] at hi

/-- Only SELB and BRD check an operand, and they refuse it as an invalid argument (R91, R110). -/
theorem RegisterAccess.refuses (hi : RegisterAccess i) (h : s.seq = .step k) (hr : s.req = some i)
    (he : exec i s = .next (raise st s)) :
    .invalidArgument = st ∧ ((∃ b, i = .selb b) ∨ ∃ a c, i = .brd a c) := by
  obtain ⟨b, rfl⟩ | ⟨a, rfl⟩ | ⟨a, d, rfl⟩ | ⟨m, a, v, sh, rfl⟩ | ⟨a, c, rfl⟩ := hi
  · exact ⟨selbSteps_raises (selb_step b h hr ▸ he), .inl ⟨b, rfl⟩⟩
  · rw [rdr_step a h hr] at he
    unfold rdrSteps at he
    split at he <;> simp at he
  · rw [wrr_step a d h hr] at he
    unfold wrrSteps at he
    split at he <;> simp at he
  · rw [rmw_step m a v sh h hr] at he
    unfold rmwSteps at he
    split at he <;> simp at he
  · exact ⟨brdSteps_raises (brd_step a c h hr ▸ he), .inr ⟨a, c, rfl⟩⟩

/-- The statuses of the five requests, by the move that gives the response. -/
theorem RegisterAccess.status (hi : RegisterAccess i) (he : exec i s = .next t)
    (ht : t.seq = .respond) : ∃ r, t.resp = some r ∧ (r.status = .ok ∨ r.status = .commsFailure ∨
      (r.status = .invalidArgument ∧ ((∃ b, i = .selb b) ∨ ∃ a c, i = .brd a c))) := by
  cases exec_move he with
  | fail => exact ⟨_, rfl, .inr (.inl rfl)⟩
  | refuse st h hr =>
    obtain ⟨rfl, hc⟩ := hi.refuses h hr he
    exact ⟨_, rfl, .inr (.inr ⟨rfl, hc⟩)⟩
  | configure | sliced | finish => exact ⟨_, rfl, .inl rfl⟩
  | silent h => cases h.symm.trans ht
  | _ => cases ht

/-- Settles O20, clause by clause: CFGF alone writes `FMT`, RMW alone of the five uses `RBYTE`. -/
theorem registerAccessRequestsWriteNoFmt : Obligations.RegisterAccessRequestsWriteNoFmt := by
  intro i s t (hi : RegisterAccess i) he
  have m := exec_move he
  refine ⟨m.fmt_cases.resolve_right ?_, m.keepsSession, fun hrmw => ?_, hi.status he⟩
  · rintro ⟨format, hcfgf, -⟩
    exact hi.ne_cfgf format hcfgf
  · refine exec_rbyte hi.isRequest (Bool.eq_false_iff.2 fun hb => ?_) he
    obtain h | ⟨format, hcfgf⟩ := usesByte_cases hb
    · exact hrmw h
    · exact hi.ne_cfgf format hcfgf

/-! ## The run of a request -/

theorem keepsSession.trans (h1 : keepsSession s v) (h2 : keepsSession v t) : keepsSession s t := by
  obtain ⟨hcfg, hprog, hpc, hrs⟩ := h1
  obtain ⟨hcfg', hprog', hpc', hrs'⟩ := h2
  exact ⟨hcfg'.trans hcfg, hprog'.trans hprog, hpc'.trans hpc, hrs'.trans hrs⟩

/-- A request whose first step refuses an operand ends with no transaction (R91, R110). -/
theorem refused_run (hq : i.isRequest = true) (h : s.seq = .idle)
    (he : exec i (accept i s) = .next (raise .invalidArgument (accept i s))) :
    ∃ s1 t, execPath i s [s1, t] ∧
      [s1, t].map (·.seq) = [.step 1, .respond] ∧ s1.cs = s.cs ∧ t.cs = s.cs ∧
      t.resp = some ⟨.invalidArgument, .none⟩ ∧ t.trace = s.trace ∧ t.answers = s.answers ∧
      t.fmt = s.fmt ∧ t.rbyte = s.rbyte ∧ keepsSession s t :=
  ⟨_, _, ⟨exec_idle hq h, he, trivial⟩, rfl, rfl, rfl, rfl, rfl, rfl, rfl, rfl, rfl, rfl, rfl, rfl⟩

/-- What answer `o` to the transaction of step `k` makes of request `i`: its end, with data `d` (R90). -/
def EndsOn (i : Instr) (k : Nat) : Answer → Data → Prop
  | .fail, d => d = .none
  | .ok rx, d => ∀ u, answered i k rx u = .next (respond .ok d u)

/-- Transaction `tx`, presented from `v`, has had answer `o` and ended its request in `t`, with data `d`. -/
structure EndsWith (tx : Bytes) (o : Answer) (rest : List Answer) (d : Data) (v t : State) : Prop where
  seq : t.seq = .respond
  cs : t.cs = .high
  resp : t.resp = some ⟨outcomeStatus o, d⟩
  trace : t.trace = v.trace ++ [⟨tx, o⟩]
  answers : t.answers = rest
  fmt : t.fmt = v.fmt
  rbyte : t.rbyte = v.rbyte
  session : keepsSession v t

/-- The answer Ok to the transaction just presented goes to its request. -/
theorem exec_present_ok {rx : Bytes} (hq : i.isRequest = true) (hr : v.req = some i)
    (hl : tx.length ≤ 256) (ha : v.answers = .ok rx :: rest) (hrx : rx.length = tx.length) :
    exec i (present k tx v) = answered i k rx (receive rx (endXfer (.ok rx) (present k tx v))) :=
  (exec_xfer (s := present k tx v) hq rfl hr).trans (exchange_present_ok hl ha hrx)

/-- The last transaction of a request ends it, whatever the answer. -/
theorem exec_present_ends (hq : i.isRequest = true) (hr : v.req = some i) (hl : tx.length ≤ 256)
    (ha : v.answers = o :: rest) (hfit : answerFits o tx.length) (hd : EndsOn i k o d) :
    ∃ t, exec i (present k tx v) = .next t ∧ EndsWith tx o rest d v t := by
  cases o with
  | fail =>
    obtain rfl : d = .none := hd
    refine ⟨_, (exec_xfer (s := present k tx v) hq rfl hr).trans (exchange_fail ha), ?_⟩
    constructor <;> simp [outcomeStatus, keepsSession, present_tx v k hl, ha]
  | ok rx =>
    refine ⟨_, (exec_present_ok hq hr hl ha hfit).trans (hd _), ?_⟩
    constructor <;> simp [outcomeStatus, keepsSession, present_tx v k hl, ha]

/-- A request whose step 1 is its last transaction. -/
theorem one_step_run (hq : i.isRequest = true) (h : s.seq = .idle)
    (he : exec i (accept i s) = .next (present 1 tx (accept i s))) (hl : tx.length ≤ 256)
    (ha : s.answers = o :: rest) (hfit : answerFits o tx.length) (hd : EndsOn i 1 o d) :
    ∃ s1 s2 t, execPath i s [s1, s2, t] ∧ [s1, s2, t].map (·.seq) = [.step 1, .xfer 1, .respond] ∧
      s1.cs = s.cs ∧ s2.cs = .low ∧ s2.tx = tx ∧ EndsWith tx o rest d s t := by
  obtain ⟨t, het, ht⟩ := exec_present_ends (v := accept i s) hq rfl hl ha hfit hd
  exact ⟨_, _, t, ⟨exec_idle hq h, he, het, trivial⟩, by simp [ht.seq], rfl, rfl, present_tx _ 1 hl,
    { ht with }⟩

/-- A request whose step 1 checks its operand and whose step 2 is its last transaction. -/
theorem checked_run (hq : i.isRequest = true) (h : s.seq = .idle)
    (hc : exec i (accept i s) = .next (toStep 2 (accept i s)))
    (he : exec i (toStep 2 (accept i s)) = .next (present 2 tx (toStep 2 (accept i s))))
    (hl : tx.length ≤ 256) (ha : s.answers = o :: rest) (hfit : answerFits o tx.length)
    (hd : EndsOn i 2 o d) :
    ∃ s1 s2 s3 t, execPath i s [s1, s2, s3, t] ∧
      [s1, s2, s3, t].map (·.seq) = [.step 1, .step 2, .xfer 2, .respond] ∧
      s3.cs = .low ∧ s3.tx = tx ∧ EndsWith tx o rest d s t := by
  obtain ⟨t, het, ht⟩ := exec_present_ends (v := toStep 2 (accept i s)) hq rfl hl ha hfit hd
  exact ⟨_, _, _, t, ⟨exec_idle hq h, hc, he, het, trivial⟩, by simp [ht.seq], rfl,
    present_tx _ 2 hl, { ht with }⟩

/-! ## SELB (R91) -/

/-- An answer to a write is not inspected: the request ends with no data. -/
theorem endsOn_none (hok : ∀ rx u, answered i k rx u = .next (respond .ok .none u)) (o : Answer) :
    EndsOn i k o .none := by
  cases o with
  | fail => rfl
  | ok rx => exact hok rx

theorem selb_refuses {bank : Byte} (h : s.seq = .step 1) (hr : s.req = some (.selb bank))
    (hb : 4#8 < bank) : exec (.selb bank) s = .next (raise .invalidArgument s) := by
  rw [selb_step bank h hr]
  simp [selbSteps, bankRefused, hb]

/-- Settles O29, by the check of the bank. -/
theorem selbSelectsTheBank : Obligations.SelbSelectsTheBank := by
  refine ⟨fun w h => by simp [decodeRequest, h], fun bank s h => ⟨fun hb => ?_, ?_⟩⟩
  · exact refused_run rfl h (selb_refuses rfl rfl hb)
  · intro o rest hb ha hfit
    obtain ⟨-, hc, he, -⟩ := selb_presents h hb
    obtain ⟨s1, s2, s3, t, hpath, hseq, hcs, htx, ht⟩ :=
      checked_run rfl h hc he (by simp) ha hfit (endsOn_none (fun _ _ => rfl) o)
    rw [writeFrame, commandByte_write] at htx ht
    exact ⟨s1, s2, s3, t, hpath, hseq, hcs, ht.cs, htx, ht.resp, ht.trace, ht.answers, ht.fmt,
      ht.rbyte, ht.session⟩

/-! ## RDR and WRR (R95, R98) -/

/-- RDR ends with the byte after the don't-care byte, or with none when the transaction fails. -/
theorem rdr_endsOn (addr : Byte) (hfit : answerFits o 2) :
    ∃ d, EndsOn (.rdr addr) 1 o d ∧
      ((∃ b0 b, o = .ok [b0, b] ∧ d = .byte b) ∨ (o = .fail ∧ d = .none)) := by
  cases o with
  | fail => exact ⟨.none, rfl, .inr ⟨rfl, rfl⟩⟩
  | ok rx =>
    obtain ⟨b0, b, rfl⟩ := List.length_eq_two.1 hfit
    exact ⟨.byte b, fun _ => rfl, .inl ⟨b0, b, rfl, rfl⟩⟩

/-- Settles O30, by the answer to its one transaction. -/
theorem rdrReadsOneByte : Obligations.RdrReadsOneByte := by
  refine ⟨fun w h => by simp [decodeRequest, h], fun addr s o rest h ha hfit => ?_⟩
  obtain ⟨d, hd, hdata⟩ := rdr_endsOn addr hfit
  obtain ⟨s1, s2, t, hpath, hseq, -, hcs, htx, ht⟩ :=
    one_step_run rfl h (rdr_step (k := 1) addr rfl rfl) (by simp) ha hfit hd
  rw [accept_cfg, readFrame_addr, List.replicate_one] at htx ht
  refine ⟨s1, s2, t, hpath, hseq, hcs, ht.cs, htx, ?_, ht.trace, ht.answers, ht.fmt, ht.rbyte,
    ht.session⟩
  obtain ⟨b0, b, rfl, rfl⟩ | ⟨rfl, rfl⟩ := hdata
  · exact .inl ⟨b0, b, rfl, ht.resp⟩
  · exact .inr ⟨rfl, ht.resp⟩

/-- Settles O31: its one transaction, whose answer is not inspected. -/
theorem wrrWritesOneByte : Obligations.WrrWritesOneByte := by
  refine ⟨fun w h => by simp [decodeRequest, h], fun addr data s o rest h ha hfit => ?_⟩
  obtain ⟨s1, s2, t, hpath, hseq, -, hcs, htx, ht⟩ :=
    one_step_run rfl h (wrr_step (k := 1) addr data rfl rfl) (by simp) ha hfit
      (endsOn_none (fun _ _ => rfl) o)
  rw [writeFrame_addr] at htx ht
  exact ⟨s1, s2, t, hpath, hseq, hcs, ht.cs, htx, ht.resp, ht.trace, ht.answers, ht.fmt, ht.rbyte,
    ht.session⟩

/-! ## RMW (R101 to R104) -/

/-- The read on the transport port of `v` is over, and RMW has latched its byte `b` (R101). -/
def readLatched (b0 b : Byte) (v : State) : State :=
  toStep 2 (latchByte b (receive [b0, b] (endXfer (.ok [b0, b]) v)))

@[simp] theorem readLatched_answers (b0 b : Byte) (v : State) :
    (readLatched b0 b v).answers = v.answers.drop 1 := rfl
@[simp] theorem readLatched_trace (b0 b : Byte) (v : State) :
    (readLatched b0 b v).trace = v.trace ++ [⟨v.tx, .ok [b0, b]⟩] := rfl

/-- From `STEP(1)`, RMW whose read is answered [b0, b] goes to `STEP(3)` with `b` latched. -/
theorem rmw_reads {mask addr value b0 b : Byte} {shift : BitVec 3} (h : s.seq = .step 1)
    (hr : s.req = some (.rmw mask addr value shift)) (ha : s.answers = .ok [b0, b] :: rest) :
    ∃ s2 s3 s4, execPath (.rmw mask addr value shift) s [s2, s3, s4] ∧
      s2.seq = .xfer 1 ∧ s2.cs = .low ∧ s3.seq = .step 2 ∧ s3.cs = .high ∧ s3.rbyte = b ∧
      s4.seq = .step 3 ∧ s4.cs = .high ∧ s4.rbyte = b ∧ s4.req = some (.rmw mask addr value shift) ∧
      s4.trace = s.trace ++ [⟨[0x80#8 ||| (addr &&& 0x7F#8), s.cfg.dummyTx], .ok [b0, b]⟩] ∧
      s4.answers = rest ∧ s4.fmt = s.fmt ∧ keepsSession s s4 := by
  have hread := rmw_step mask addr value shift h hr
  have hlatch : exec (.rmw mask addr value shift) (present 1 _ s) =
      .next (readLatched b0 b (present 1 (readFrame s.cfg (deviceAddr addr) 1) s)) :=
    exec_present_ok rfl hr (by simp) ha rfl
  refine ⟨_, _, _, ⟨hread, hlatch, rmw_step (k := 2) mask addr value shift rfl hr, trivial⟩, rfl, rfl,
    rfl, rfl, rfl, rfl, rfl, rfl, hr, ?_, ?_, rfl, ⟨rfl, rfl, rfl, rfl⟩⟩
  · simp [readFrame_addr]
  · simp [ha]

/-- The write of RMW: its byte is formed from `RBYTE`, and its answer ends the request. -/
theorem rmw_writes {mask addr value : Byte} {shift : BitVec 3} (h : s.seq = .step 3)
    (hr : s.req = some (.rmw mask addr value shift)) (ha : s.answers = o :: rest)
    (hfit : answerFits o 2) :
    ∃ s' t, execPath (.rmw mask addr value shift) s [s', t] ∧ s'.seq = .xfer 3 ∧ s'.cs = .low ∧
      EndsWith [addr &&& 0x7F#8, rmwByte s.rbyte mask value shift] o rest .none (releaseByte s) t := by
  obtain ⟨t, het, ht⟩ := exec_present_ends (v := releaseByte s) (k := 3)
    (tx := writeFrame (deviceAddr addr) (rmwByte s.rbyte mask value shift)) rfl hr (by simp) ha hfit
    (endsOn_none (fun _ _ => rfl) o)
  rw [writeFrame_addr] at ht
  exact ⟨_, t, ⟨rmw_step mask addr value shift h hr, het, trivial⟩, rfl, rfl, ht⟩

/-- Settles O32: the failed read, then the read that goes on to the write. -/
theorem rmwReadsThenWrites : Obligations.RmwReadsThenWrites := by
  refine ⟨fun w h => by simp [decodeRequest, h], fun mask addr value shift s h => ⟨?_, ?_⟩⟩
  · intro rest ha
    obtain ⟨s1, s2, t, hpath, hseq, hcs1, hcs2, -, ht⟩ :=
      one_step_run (d := .none) rfl h (rmw_step (k := 1) mask addr value shift rfl rfl) (by simp) ha
        trivial rfl
    rw [accept_cfg, readFrame_addr, List.replicate_one] at ht
    exact ⟨s1, s2, t, _, hpath, hseq, hcs1, hcs2, ht.cs, step_taken ht.seq ht.resp, rfl, ht.resp,
      ht.trace, ht.answers, ht.fmt, ht.rbyte, ht.session⟩
  · intro b0 b o rest ha hfit
    obtain ⟨s2, s3, s4, ⟨h2, h3, h4, -⟩, hq2, hcs2, hq3, hcs3, hb3, hq4, hcs4, hb4, hr4, htr, hans,
      hfmt, hses⟩ := rmw_reads (s := accept (.rmw mask addr value shift) s) rfl rfl ha
    obtain ⟨s5, t, ⟨h5, h6, -⟩, hq5, hcs5, ht⟩ := rmw_writes hq4 hr4 hans hfit
    refine ⟨_, s2, s3, s4, s5, t, _, ⟨exec_idle rfl h, h2, h3, h4, h5, h6, trivial⟩, ?_, rfl, hcs2, hcs3,
      hcs4, hcs5, ht.cs, step_taken ht.seq ht.resp, rfl, hb3, hb4, ht.resp, ?_, ht.answers,
      ht.fmt.trans hfmt, keepsSession.trans hses ht.session⟩
    · simp [hq2, hq3, hq4, hq5, ht.seq]
    · simp [ht.trace, htr, hb4, rmwByte, shl8]

section
variable {w : Nat} (r m v : BitVec w)

/-- A replaced field keeps the bits outside its mask, if the value stays inside it. -/
theorem replace_outside (h : v &&& ~~~m = 0) : (r &&& ~~~m ||| v) &&& ~~~m = r &&& ~~~m := by
  rw [BitVec.and_or_distrib_right, h, BitVec.and_assoc, BitVec.and_self]
  exact BitVec.or_zero

/-- A replaced field holds the value inside its mask. -/
theorem replace_inside : (r &&& ~~~m ||| v) &&& m = v &&& m := by
  rw [BitVec.and_or_distrib_right, BitVec.and_assoc, BitVec.and_comm (~~~m) m]
  simp

/-- The bits of the value outside the mask are set, whatever was there. -/
theorem replace_overflow : (r &&& ~~~m ||| v) &&& (v &&& ~~~m) = v &&& ~~~m := by
  have h : (r &&& ~~~m ||| v) &&& v = v := by
    ext i hi
    simp +contextual
  rw [← BitVec.and_assoc, h]

end

/-- Settles O33, by the bits of the byte formed in step 3. -/
theorem rmwPreservationLaw : Obligations.RmwPreservationLaw := by
  intro mask addr value shift s h hr
  refine ⟨_, rmwByte s.rbyte mask value shift, rmw_step mask addr value shift h hr, rfl, rfl, ?_,
    fun hv => ⟨replace_outside _ _ _ hv, replace_inside _ _ _⟩, replace_overflow _ _ _⟩
  rw [present_tx _ _ (by simp), writeFrame_addr]

/-! ## BRD (R110) -/

theorem brd_refuses {addr count : Byte} (h : s.seq = .step 1) (hr : s.req = some (.brd addr count))
    (hc : count < 2#8) : exec (.brd addr count) s = .next (raise .invalidArgument s) := by
  rw [brd_step addr count h hr]
  simp [brdSteps, countRefused, hc]

theorem brd_accepts {addr count : Byte} (h : s.seq = .step 1) (hr : s.req = some (.brd addr count))
    (hc : 2#8 ≤ count) : exec (.brd addr count) s = .next (toStep 2 s) := by
  have hn : countRefused count = false := by simpa [countRefused] using hc
  rw [brd_step addr count h hr]
  simp [brdSteps, hn]

/-- BRD ends with the bytes after the don't-care byte, or with none when the transaction fails. -/
theorem brd_endsOn (addr count : Byte) {n : Nat} (hfit : answerFits o (n + 1)) :
    ∃ d, EndsOn (.brd addr count) 2 o d ∧
      ((∃ b0 data, o = .ok (b0 :: data) ∧ data.length = n ∧ d = .bytes data) ∨
        (o = .fail ∧ d = .none)) := by
  cases o with
  | fail => exact ⟨.none, rfl, .inr ⟨rfl, rfl⟩⟩
  | ok rx =>
    obtain ⟨b0, data, rfl, hdata⟩ := List.length_eq_succ_iff.1 hfit
    exact ⟨.bytes data, fun _ => rfl, .inl ⟨b0, data, rfl, hdata, rfl⟩⟩

theorem readFrame_fits (p : Params) (a : Addr) (count : Byte) :
    (readFrame p a count.toNat).length ≤ 256 := by
  rw [readFrame_length]
  exact count.isLt

/-- Settles O34, by the check of the count. -/
theorem brdReadsCountBytes : Obligations.BrdReadsCountBytes := by
  refine ⟨fun w h => by simp [decodeRequest, h], fun addr count s h => ⟨fun hc => ?_, ?_⟩⟩
  · exact refused_run rfl h (brd_refuses rfl rfl hc)
  · intro o rest hc ha hfit
    obtain ⟨d, hd, hdata⟩ := brd_endsOn addr count hfit
    obtain ⟨s1, s2, s3, t, hpath, hseq, hcs, htx, ht⟩ :=
      checked_run rfl h (brd_accepts rfl rfl hc) (brd_step (k := 2) addr count rfl rfl)
        (readFrame_fits _ _ count) ha (by simpa using hfit) hd
    rw [toStep_cfg, accept_cfg, readFrame_addr] at htx ht
    refine ⟨s1, s2, s3, t, hpath, hseq, hcs, ht.cs, htx, ?_, ht.trace, ht.answers, ht.fmt, ht.rbyte,
      ht.session⟩
    obtain ⟨b0, data, rfl, hlen, rfl⟩ | ⟨rfl, rfl⟩ := hdata
    · exact .inl ⟨b0, data, rfl, hlen, ht.resp⟩
    · exact .inr ⟨rfl, ht.resp⟩

end Sys2Proof.Machine
end

section
/-! The requests of the FIFO decoder: the runs of CFGF and RDF by their checks and transactions, and the
packet formats (45_fifo_decoder R131 to R147): O36, O37, O38, O39, O40, O41, O42. -/

namespace Sys2Proof.Machine

variable {s t v : State} {i : Instr} {k len : Nat} {rest : List Answer} {tx rx : Bytes} {format : Byte}
  {fields req : Presence}

/-! ## A transaction in the middle of a request (40_register_access R90) -/

/-- Transaction `tx` of step `k`, presented from `v`, has been answered Ok with `rx`, which `RXBUF` holds. -/
def exchanged (k : Nat) (tx rx : Bytes) (v : State) : State :=
  receive rx (endXfer (.ok rx) (present k tx v))

section
variable (k : Nat) (tx rx : Bytes) (v : State)

@[simp] theorem exchanged_fmt : (exchanged k tx rx v).fmt = v.fmt := rfl
@[simp] theorem exchanged_rbyte : (exchanged k tx rx v).rbyte = v.rbyte := rfl
@[simp] theorem exchanged_cfg : (exchanged k tx rx v).cfg = v.cfg := rfl
@[simp] theorem exchanged_answers : (exchanged k tx rx v).answers = v.answers.drop 1 := rfl

end

@[simp] theorem exchanged_trace (k : Nat) (rx : Bytes) (v : State) (hl : tx.length ≤ 256) :
    (exchanged k tx rx v).trace = v.trace ++ [⟨tx, .ok rx⟩] := by
  simp [exchanged, present_tx v k hl]

@[simp] theorem exchanged_rx (k : Nat) (tx : Bytes) (v : State) (hl : rx.length ≤ 256) :
    (exchanged k tx rx v).rx = rx :=
  receive_rx _ hl

/-- From `STEP(k)` a transaction answered Ok takes its request to `XFER(k)` and on, by the request's use of
the answer. -/
theorem transaction_path (hq : i.isRequest = true) (hr : v.req = some i)
    (he : exec i s = .next (present k tx v)) (hl : tx.length ≤ 256) (ha : v.answers = .ok rx :: rest)
    (hrx : rx.length = tx.length) (hgo : answered i k rx (exchanged k tx rx v) = .next t) :
    execPath i s [present k tx v, t] :=
  ⟨he, (exec_present_ok hq hr hl ha hrx).trans hgo, trivial⟩

/-- An instruction that runs keeps the session. -/
theorem execPath_keepsSession {l : List State} (hp : execPath i s l) (ht : t ∈ l) : keepsSession s t := by
  induction l generalizing s with
  | nil => cases ht
  | cons u l ih =>
    obtain ⟨he, hp⟩ := hp
    have hu := (exec_move he).keepsSession
    obtain rfl | ht := List.mem_cons.1 ht
    · exact hu
    · exact keepsSession.trans hu (ih hp ht)

/-! ## CFGF (R132 to R136) -/

theorem cfgf_refuses (h : s.seq = .step 1) (hr : s.req = some (.cfgf format))
    (hf : formatRefused format = true) :
    exec (.cfgf format) s = .next (raise .invalidArgument s) := by
  rw [cfgf_step format h hr]
  simp [cfgfSteps, hf]

theorem cfgf_accepts (h : s.seq = .step 1) (hr : s.req = some (.cfgf format))
    (hf : formatRefused format = false) : exec (.cfgf format) s = .next (toStep 2 s) := by
  rw [cfgf_step format h hr]
  simp [cfgfSteps, hf]

/-- Settles O36, by the check of the format. -/
theorem cfgfRefusesOtherFormats : Obligations.CfgfRefusesOtherFormats := by
  refine ⟨fun w h => by simp [decodeRequest, h], fun format s h => ⟨fun hf => ?_, fun hf => ?_⟩⟩
  · exact refused_run rfl h (cfgf_refuses rfl rfl ((formatRefused_iff format).2 hf))
  · have hc : formatRefused format = false :=
      Bool.eq_false_iff.2 fun hc => (formatRefused_iff format).1 hc hf
    exact ⟨_, _, ⟨exec_idle rfl h, cfgf_accepts rfl rfl hc, trivial⟩, rfl⟩

/-- CFGF has selected bank 0 in its `STEP(2)`. -/
def bankDone (rx : Bytes) (s : State) : State :=
  toStep 3 (exchanged 2 (writeFrame s.cfg.bankSelAddr 0x00#8) rx s)

/-- CFGF has read the FIFO mode in its `STEP(3)` and latched the byte `b`. -/
def modeRead (b0 b : Byte) (s : State) : State :=
  toStep 4 (latchByte b (exchanged 3 (readFrame s.cfg s.cfg.fifoModeAddr 1) [b0, b] s))

/-- The frame of CFGF's `STEP(5)`: it writes the FIFO mode formed from `RBYTE`. -/
def modeFrame (s : State) : Bytes :=
  writeFrame s.cfg.fifoModeAddr
    (rmwByte s.rbyte s.cfg.fifoModeMask s.cfg.fifoModeStream s.cfg.fifoModeShift)

@[simp] theorem modeFrame_length (s : State) : (modeFrame s).length = 2 := rfl

/-- CFGF has written the FIFO mode in its `STEP(5)`. -/
def modeWritten (rx : Bytes) (s : State) : State :=
  toStep 6 (exchanged 5 (modeFrame s) rx (releaseByte s))

/-- CFGF has written the pattern of its format in its `STEP(6)`. -/
def patternWritten (pattern : Byte) (rx : Bytes) (s : State) : State :=
  toStep 7 (exchanged 6 (writeFrame s.cfg.fifoFmtAddr pattern) rx s)

theorem cfgf_selectsBank (h : s.seq = .step 2) (hr : s.req = some (.cfgf format))
    (ha : s.answers = .ok rx :: rest) (hrx : rx.length = 2) :
    execPath (.cfgf format) s
      [present 2 (writeFrame s.cfg.bankSelAddr 0x00#8) s, bankDone rx s] :=
  transaction_path rfl hr (cfgf_step format h hr) (by simp) ha hrx rfl

theorem cfgf_readsMode {b0 b : Byte} (h : s.seq = .step 3) (hr : s.req = some (.cfgf format))
    (ha : s.answers = .ok [b0, b] :: rest) :
    execPath (.cfgf format) s
      [present 3 (readFrame s.cfg s.cfg.fifoModeAddr 1) s, modeRead b0 b s] :=
  transaction_path rfl hr (cfgf_step format h hr) (by simp) ha rfl rfl

theorem cfgf_writesMode (h : s.seq = .step 5) (hr : s.req = some (.cfgf format))
    (ha : s.answers = .ok rx :: rest) (hrx : rx.length = 2) :
    execPath (.cfgf format) s [present 5 (modeFrame s) (releaseByte s), modeWritten rx s] :=
  transaction_path rfl hr (cfgf_step format h hr) (by simp) ha hrx rfl

theorem cfgf_writesPattern {pattern : Byte} (h : s.seq = .step 6) (hr : s.req = some (.cfgf format))
    (hp : fifoPattern s.cfg format = some pattern) (ha : s.answers = .ok rx :: rest)
    (hrx : rx.length = 2) :
    execPath (.cfgf format) s
      [present 6 (writeFrame s.cfg.fifoFmtAddr pattern) s, patternWritten pattern rx s] := by
  refine transaction_path rfl hr ?_ (by simp) ha hrx rfl
  rw [cfgf_step format h hr]
  simp only [cfgfSteps, hp]

/-- A format 1 to 4 passes the check, has its pattern, and fits `FMT` (R132, R134; 00_scope R6). -/
theorem format_cases {p : Params} {pattern : Byte}
    (h : format = 1 ∧ pattern = p.fifoPattern1 ∨ format = 2 ∧ pattern = p.fifoPattern2 ∨
      format = 3 ∧ pattern = p.fifoPattern3 ∨ format = 4 ∧ pattern = p.fifoPattern4) :
    formatRefused format = false ∧ fifoPattern p format = some pattern ∧
      (format.setWidth 3 : Format).toNat = format.toNat := by
  obtain ⟨rfl, rfl⟩ | ⟨rfl, rfl⟩ | ⟨rfl, rfl⟩ | ⟨rfl, rfl⟩ := h <;> exact ⟨rfl, rfl, rfl⟩

/-- Settles O37: the check, the four transactions one after the other, the write of `FMT`. -/
theorem cfgfConfiguresTheFifo : Obligations.CfgfConfiguresTheFifo := by
  intro format pattern s r1 r3 r4 b0 b rest h hf ha hr1 hr3 hr4
  obtain ⟨hc, hp, hn⟩ := format_cases hf
  let s2 := toStep 2 (accept (.cfgf format) s)
  let s4 := bankDone r1 s2
  let s7 := toStep 5 (modeRead b0 b s4)
  let s9 := modeWritten r3 s7
  have ha4 : s4.answers = .ok [b0, b] :: .ok r3 :: .ok r4 :: rest := by simp [s4, s2, bankDone, ha]
  have ha7 : s7.answers = .ok r3 :: .ok r4 :: rest := by simp [s7, modeRead, ha4]
  have ha9 : s9.answers = .ok r4 :: rest := by simp [s9, modeWritten, ha7]
  have hcfg : s9.cfg = s.cfg := by simp [s9, s7, s4, s2, modeWritten, modeRead, bankDone]
  obtain ⟨e3, e4, -⟩ := cfgf_selectsBank (s := s2) rfl rfl ha hr1
  obtain ⟨e5, e6, -⟩ := cfgf_readsMode (s := s4) rfl rfl ha4
  obtain ⟨e8, e9, -⟩ := cfgf_writesMode (s := s7) rfl rfl ha7 hr3
  obtain ⟨e10, e11, -⟩ := cfgf_writesPattern (s := s9) rfl rfl (by rwa [hcfg]) ha9 hr4
  have hpath : execPath (.cfgf format) s [_, s2, _, s4, _, _, s7, _, s9, _, _, _] :=
    ⟨exec_idle rfl h, cfgf_accepts rfl rfl hc, e3, e4, e5, e6, cfgf_step (k := 4) format rfl rfl, e8, e9,
      e10, e11, cfgf_step (k := 7) format rfl rfl, trivial⟩
  refine ⟨_, _, _, _, _, _, _, _, _, _, _, _, hpath, rfl, rfl, ?_, rfl, hn, rfl, ?_,
    by simp [patternWritten, ha9], execPath_keepsSession hpath (by simp)⟩
  all_goals
    simp [s9, s7, s4, s2, patternWritten, modeWritten, modeRead, bankDone, modeFrame, readFrame, writeFrame,
      commandByte_read, commandByte_write, rmwByte, shl8]

/-- Settles O38: the exchange of a transaction whose answer is Fail. -/
theorem cfgfFailureKeepsFmt : Obligations.CfgfFailureKeepsFmt := by
  intro format s k rest hr h ha
  exact ⟨_, (exec_xfer rfl h hr).trans (exchange_fail ha), rfl, rfl, rfl, rfl, rfl, rfl, rfl, rfl, rfl, rfl⟩

/-! ## The packet formats (R131) -/

/-- The fields of a packet of format `f` that byte `j` belongs to. -/
def fieldsAt (f : Format) (j : Nat) : List Field :=
  [.accel, .gyro, .temp, .timestamp, .extended, .extra].filter fun x =>
    (fieldRange f x).any fun r => decide (r.1 ≤ j ∧ j ≤ r.2)

theorem mem_fieldsAt {f : Format} {j : Nat} {x : Field} :
    x ∈ fieldsAt f j ↔ ∃ lo hi, fieldRange f x = some (lo, hi) ∧ lo ≤ j ∧ j ≤ hi := by
  have hx : x ∈ [Field.accel, .gyro, .temp, .timestamp, .extended, .extra] := by cases x <;> decide
  simp [fieldsAt, List.mem_filter, hx, Option.any_eq_true]

/-- Every byte after the header belongs to one field, in the tables of all formats. -/
theorem fieldsAt_length : ∀ f : Format, ∀ j < (fifoLen f).getD 0, 1 ≤ j → (fieldsAt f j).length = 1 := by
  decide

/-- The required fields are the delivered ones. -/
theorem requiredFields_getLsbD {f : Format} (h : requiredFields f = some req)
    (x : Field) : req.getLsbD (fieldBit x) = (fieldRange f x).isSome := by
  revert f req
  cases x <;> decide

/-- Settles O39: the tables by evaluation, their law by the one field of each byte. -/
theorem packetLayout : Obligations.PacketLayout := by
  refine ⟨⟨rfl, rfl, rfl, rfl⟩, ⟨rfl, rfl, rfl, rfl⟩, fun _ _ _ _ _ _ _ _ => ⟨rfl, rfl⟩,
    fun _ _ _ _ _ _ _ _ _ _ _ _ _ _ _ _ => rfl,
    fun _ _ _ _ _ _ _ _ _ _ _ _ _ _ _ _ _ _ _ _ => rfl,
    fun f len req hlen hreq => ⟨fun j h1 hj => ?_, requiredFields_getLsbD hreq⟩⟩
  obtain ⟨x, hx⟩ := List.length_eq_one_iff.1 (fieldsAt_length f j (by simpa [hlen] using hj) h1)
  have hone (y) : y ∈ fieldsAt f j ↔ y = x := by rw [hx, List.mem_singleton]
  obtain ⟨lo, hi, hr, hlo, hhi⟩ := mem_fieldsAt.1 ((hone x).2 rfl)
  exact ⟨x, lo, hi, hr, hlo, hhi, fun y lo' hi' hr' hlo' hhi' =>
    (hone y).1 (mem_fieldsAt.2 ⟨lo', hi', hr', hlo', hhi'⟩)⟩

/-! ## RDF (R140 to R147) -/

/-- RDF has been taken and has selected bank 0 in its `STEP(1)`. -/
def rdfBanked (fields : Presence) (rx : Bytes) (s : State) : State :=
  toStep 2 (exchanged 1 (writeFrame s.cfg.bankSelAddr 0x00#8) rx (accept (.rdf fields) s))

section
variable (fields : Presence) (rx : Bytes) (s : State)

@[simp] theorem rdfBanked_seq : (rdfBanked fields rx s).seq = .step 2 := rfl
@[simp] theorem rdfBanked_fmt : (rdfBanked fields rx s).fmt = s.fmt := rfl
@[simp] theorem rdfBanked_rbyte : (rdfBanked fields rx s).rbyte = s.rbyte := rfl
@[simp] theorem rdfBanked_cfg : (rdfBanked fields rx s).cfg = s.cfg := rfl
@[simp] theorem rdfBanked_answers : (rdfBanked fields rx s).answers = s.answers.drop 1 := rfl
@[simp] theorem rdfBanked_trace : (rdfBanked fields rx s).trace =
    s.trace ++ [⟨[s.cfg.bankSelAddr.setWidth 8, 0x00#8], .ok rx⟩] := by
  simp [rdfBanked, writeFrame, commandByte_write]

end

/-- From `IDLE`, RDF whose bank select is Ok goes to `STEP(2)`. -/
theorem rdf_selectsBank (h : s.seq = .idle) (ha : s.answers = .ok rx :: rest) (hrx : rx.length = 2) :
    execPath (.rdf fields) s
      [accept (.rdf fields) s,
        present 1 (writeFrame s.cfg.bankSelAddr 0x00#8) (accept (.rdf fields) s),
        rdfBanked fields rx s] :=
  ⟨exec_idle rfl h, transaction_path (v := accept (.rdf fields) s) rfl rfl
    (rdf_step (k := 1) fields rfl rfl) (by simp) ha hrx rfl⟩

theorem rdf_notConfigured (h : s.seq = .step 2) (hr : s.req = some (.rdf fields)) (hf : s.fmt = 0) :
    exec (.rdf fields) s = .next (raise .notConfigured s) :=
  (rdf_step fields h hr).trans (if_pos hf)

theorem rdf_configured (h : s.seq = .step 2) (hr : s.req = some (.rdf fields))
    (hreq : requiredFields s.fmt = some req) : exec (.rdf fields) s = .next (toStep 3 s) := by
  have hf : s.fmt ≠ 0 := by
    intro hf
    simp [hf, requiredFields] at hreq
  exact (rdf_step fields h hr).trans (if_neg hf)

theorem rdf_missing (h : s.seq = .step 3) (hr : s.req = some (.rdf fields))
    (hreq : requiredFields s.fmt = some req) (hm : fields &&& req ≠ req) :
    exec (.rdf fields) s = .next (raise .invalidArgument s) := by
  rw [rdf_step fields h hr]
  simp [rdfSteps, hreq, fieldsSupplied, hm]

theorem rdf_supplied (h : s.seq = .step 3) (hr : s.req = some (.rdf fields))
    (hreq : requiredFields s.fmt = some req) (hm : fields &&& req = req) :
    exec (.rdf fields) s = .next (toStep 4 s) := by
  rw [rdf_step fields h hr]
  simp [rdfSteps, hreq, fieldsSupplied, hm]

/-- With a format and its required fields RDF goes on to present its burst. -/
theorem rdf_bursts (h : s.seq = .step 2) (hr : s.req = some (.rdf fields))
    (hlen : fifoLen s.fmt = some len) (hreq : requiredFields s.fmt = some req)
    (hm : fields &&& req = req) :
    execPath (.rdf fields) s [toStep 3 s, toStep 4 (toStep 3 s),
      present 4 (readFrame s.cfg s.cfg.fifoDataAddr len) (toStep 4 (toStep 3 s))] := by
  refine ⟨rdf_configured h hr hreq, rdf_supplied rfl hr hreq hm, ?_, trivial⟩
  rw [rdf_step (s := toStep 4 (toStep 3 s)) fields rfl hr]
  simp [rdfSteps, hlen]

/-- The burst of a packet fits `TXBUF` and `RXBUF`. -/
theorem fifoLen_lt {f : Format} (h : fifoLen f = some len) : len < 256 :=
  (fifoLen_bounds h).2.trans_lt (by decide)

/-- Settles O40: the bank select, the two checks, the burst and the slicing of its packet. -/
theorem rdfReturnsThePacketsFields : Obligations.RdfReturnsThePacketsFields := by
  refine ⟨fun w h => by simp [decodeRequest, h],
    fun fields req len s r1 P x rest h hlen hreq hm ha hr1 hP => ?_⟩
  obtain ⟨e1, e2, e3, -⟩ := rdf_selectsBank (fields := fields) h ha hr1
  obtain ⟨e4, e5, e6, -⟩ := rdf_bursts (s := rdfBanked fields r1 s) rfl rfl hlen hreq hm
  have hfit := fifoLen_lt hlen
  have ha4 : (rdfBanked fields r1 s).answers = .ok (x :: P) :: rest := by simp [ha]
  obtain ⟨-, e7, -⟩ := transaction_path (rx := x :: P) rfl rfl e6 (by simpa) ha4 (by simp [hP]) rfl
  have hpath : execPath (.rdf fields) s [_, _, rdfBanked fields r1 s, _, _, _, _, _] :=
    ⟨e1, e2, e3, e4, e5, e6, e7, rdf_step (k := 5) fields rfl rfl, trivial⟩
  refine ⟨_, _, _, _, _, _, _, _, hpath, rfl, rfl, ?_, ?_, ?_, ?_, ?_,
    execPath_keepsSession hpath (by simp)⟩
  · simp [hP, hfit, payload]
  · simp [hfit, readFrame, commandByte_read]
  all_goals simp [ha]

/-- Settles O41, by the check that fails. -/
theorem rdfChecksBeforeTheBurst : Obligations.RdfChecksBeforeTheBurst := by
  intro fields s r1 rest h ha hr1
  obtain ⟨e1, e2, e3, -⟩ := rdf_selectsBank (fields := fields) h ha hr1
  refine ⟨fun hf => ?_, fun req hreq hm => ?_⟩
  · have hpath : execPath (.rdf fields) s [_, _, rdfBanked fields r1 s, _] :=
      ⟨e1, e2, e3, rdf_notConfigured rfl rfl hf, trivial⟩
    refine ⟨_, _, _, _, hpath, rfl, rfl, rfl, ?_, ?_, rfl, rfl, execPath_keepsSession hpath (by simp)⟩
    all_goals simp [ha]
  · have hpath : execPath (.rdf fields) s [_, _, rdfBanked fields r1 s, _, _] :=
      ⟨e1, e2, e3, rdf_configured rfl rfl hreq, rdf_missing rfl rfl hreq hm, trivial⟩
    refine ⟨_, _, _, _, _, hpath, rfl, rfl, rfl, ?_, ?_, rfl, rfl,
      execPath_keepsSession hpath (by simp)⟩
    all_goals simp [ha]

/-- Settles O42, by the transaction that fails. -/
theorem rdfTransportFailures : Obligations.RdfTransportFailures := by
  refine fun fields s h => ⟨fun rest ha => ?_, fun r1 rest req len ha hr1 hlen hreq hm => ?_⟩
  · obtain ⟨s1, s2, t, hpath, hseq, -, -, -, ht⟩ :=
      one_step_run (d := .none) rfl h (rdf_step (k := 1) fields rfl rfl) (by simp) ha trivial rfl
    have htr := ht.trace
    rw [accept_cfg, writeFrame, commandByte_write] at htr
    exact ⟨s1, s2, t, hpath, hseq, ht.resp, ht.cs, htr, ht.answers, ht.fmt, ht.rbyte, ht.session⟩
  · obtain ⟨e1, e2, e3, -⟩ := rdf_selectsBank (fields := fields) h ha hr1
    obtain ⟨e4, e5, e6, -⟩ := rdf_bursts (s := rdfBanked fields r1 s) rfl rfl hlen hreq hm
    have hfit := fifoLen_lt hlen
    have ha4 : (rdfBanked fields r1 s).answers = .fail :: rest := by simp [ha]
    obtain ⟨t, e7, ht⟩ := exec_present_ends (i := .rdf fields) (k := 4) (d := .none)
      (tx := readFrame s.cfg s.cfg.fifoDataAddr len) (v := toStep 4 (toStep 3 (rdfBanked fields r1 s)))
      rfl rfl (by simpa) ha4 trivial rfl
    have hpath : execPath (.rdf fields) s [_, _, rdfBanked fields r1 s, _, _, _, t] :=
      ⟨e1, e2, e3, e4, e5, e6, e7, trivial⟩
    refine ⟨_, _, _, _, _, _, t, hpath, ?_, ht.resp, ht.cs, ?_, ht.answers, ht.fmt, ht.rbyte,
      execPath_keepsSession hpath (by simp)⟩
    · simp [ht.seq]
    · simp [ht.trace, readFrame, commandByte_read]

end Sys2Proof.Machine
end

section
/-! The statuses, the responses that appear, and a transaction that is never answered: O12, O14, O46
(60_exceptions R160, R162, R170). -/

namespace Sys2Proof.Machine

variable {s t : State} {i : Instr} {r : Response}

/-! ## Statuses (R160) -/

/-- Settles O46, status by status. -/
theorem statusCodes : Obligations.StatusCodes := by
  refine ⟨rfl, rfl, rfl, rfl, rfl, fun st => ?_⟩
  cases st <;> decide

/-! ## The responses that appear (R162, R163) -/

theorem legalResponse_iff :
    legalResponse r = true ↔ r.status ≠ .notImplemented ∧ (r.status ≠ .ok → r.data = .none) := by
  simp [legalResponse, errorHasNoData, or_iff_not_imp_left]

theorem legalResponse_ok (d : Data) : legalResponse ⟨.ok, d⟩ = true := by
  simp [legalResponse_iff]

theorem legalResponse_error {st : Status} (h : st ≠ .notImplemented) :
    legalResponse ⟨st, .none⟩ = true := by
  simp [legalResponse_iff, h]

/-- A move that ends in `RESPOND` holds a legal response there, whatever the state it is made from. -/
theorem Move.resp_legal (m : Move i s t) (h : t.seq = .respond) (hr : t.resp = some r) :
    legalResponse r = true := by
  cases m with
  | accept | advance | present | presentByte | resume | latch => cases h
  | silent hx => cases hx.symm.trans h
  | fail =>
    cases hr
    exact legalResponse_error (by decide)
  | refuse st _ _ hst =>
    cases hr
    exact legalResponse_error (by rintro rfl; simp at hst)
  | configure | sliced | finish =>
    cases hr
    exact legalResponse_ok _

/-- Settles O14: only an instruction's move reaches `RESPOND`, and its response is legal. -/
theorem newResponsesAreLegal : Obligations.NewResponsesAreLegal := by
  intro s t r hn hs hr ht
  obtain ⟨i, -, he⟩ | ⟨-, -, rfl⟩ | ⟨h, -⟩ := step_cases hn
  · exact legalResponse_iff.1 ((exec_move he).resp_legal ht hr)
  · exact absurd ht hs
  · exact absurd h hs

/-! ## A transaction never answered (R170) -/

/-- Settles O12: with no answer to come the exchange leaves a legal state as it is, so by induction on the
number of steps every run does. -/
theorem unansweredTransactionHangs : Obligations.UnansweredTransactionHangs := by
  intro s k hi h ha
  obtain ⟨i, -, -, hstep, -⟩ := hi.step_xfer h
  have hstay : step s = .next s := hstep.trans (exchange_silent ha)
  refine ⟨hi.cs_low.2 (inXfer_iff.2 ⟨k, h⟩), hi.resp_none (by simp [h]), fun n => ?_⟩
  induction n with
  | zero => rfl
  | succ n ih => exact (run_succ hstay).trans ih

end Sys2Proof.Machine
end

section
/-! The machine out of reset (70 R180, R182): O5. -/

namespace Sys2Proof.Machine

/-- In `IDLE` the port takes the request that the word at the requester's position decodes to, whatever the
word is (10_state R28). -/
theorem step_takes_request {s : State} {w : ReqWord} (h : s.seq = .idle)
    (hw : s.program[s.pc]? = some w) : step s = .next (accept (decodeRequest w) s) :=
  (step_idle h hw).trans (exec_idle (decodeRequest_isRequest w) h)

/-- Settles O5: the reset state is in `IDLE` with no request presented, and the port takes any word put first
in its program. -/
theorem resetWaitsForAnyFirstRequest : Obligations.ResetWaitsForAnyFirstRequest :=
  ⟨rfl, step_wait rfl rfl, fun _ _ => ⟨_, step_takes_request rfl rfl, rfl, rfl⟩⟩

end Sys2Proof.Machine
end
